-- ==== Sys2Proof/Word.lean ====
section
/-! DEFINITION. The value types of the core: durations and timestamps, Codes, ActionNames and table entries
(30_encoding.md R70, R73; 20_memory.md R53). -/

namespace Sys2Proof

/-- A u32: a PulseDuration, a timestamp or a code word (00_scope.md R9). -/
abbrev U32 := BitVec 32

/-- A u8 (00_scope.md R9). -/
abbrev U8 := BitVec 8

/-- A Code: four u8 fields in sequence order, equal exactly when all four are (R70). -/
structure Code where
  b0 : U8
  b1 : U8
  b2 : U8
  b3 : U8
  deriving DecidableEq, Repr, Inhabited

/-- An ActionName: the sentinel and the six known names (R73). An unassigned 8-bit value is none of these. -/
inductive ActionName where
  | unknown
  | power
  | up
  | down
  | left
  | right
  | menu
  deriving DecidableEq, Repr, Inhabited

/-- One entry of the CodeTable (R53). -/
structure Entry where
  key  : Code
  name : ActionName
  deriving DecidableEq, Repr, Inhabited

end Sys2Proof
end

