-- ==== Sys2Proof/Config.lean ====
section
/-! DEFINITION. What an implementation fixes (00_scope.md R7) and the inputs a step draws (10_state.md R47). The OPEN
parameters and the inputs the environment has not lined up are opaque constants with no body: nothing can evaluate them. -/

namespace Sys2Proof

/-- The parameters a machine is built with (R7, 70_reset_and_hazards.md R254). No step writes them. -/
structure Params where
  /-- IDLE_TIMEOUT_MS, in milliseconds. -/
  idleTimeoutMs  : U32
  /-- PULSE_TIMEOUT_US, in microseconds. -/
  pulseTimeoutUs : U32
  /-- SEED_TABLE (42_codetable.md R145). -/
  seedTable      : List Entry
  /-- TABLE_CAPACITY: `none` is the unbounded reference table (20_memory.md R54). -/
  tableCapacity  : Option Nat
  deriving DecidableEq, Repr, Inhabited

/-- The inputs one step reads, all sampled together (R40, R42, R45, R47). -/
structure Sample where
  /-- the reset input (70_reset_and_hazards.md R251) -/
  rst   : Bool
  /-- the sensor level: false is low, a mark; true is high, a space (R41) -/
  line  : Bool
  nowUs : U32
  nowMs : U32
  /-- the command word the host presents, if it presents one (R45) -/
  cmd   : Option (BitVec 64)
  deriving DecidableEq, Repr, Inhabited

/-- OPEN: IDLE_TIMEOUT_MS (92_eei_decisions.md D5). DESIGN CHOICE, safe, log entry 3. -/
opaque Config.idleTimeoutMs : U32

/-- OPEN: PULSE_TIMEOUT_US (92_eei_decisions.md D6). DESIGN CHOICE, safe, log entry 3. -/
opaque Config.pulseTimeoutUs : U32

/-- OPEN: SEED_TABLE (92_eei_decisions.md D11). DESIGN CHOICE, safe, log entry 3. -/
opaque Config.seedTable : List Entry

/-- A free sample: what the environment shows the core at the n-th draw (R6, R44: every sequence of inputs is
admitted). DESIGN CHOICE, safe, log entry 1. -/
opaque Config.freeSample : Nat → Sample

/-- The open parameters together, with the reference capacity of R7. -/
def Config.openParams : Params where
  idleTimeoutMs  := Config.idleTimeoutMs
  pulseTimeoutUs := Config.pulseTimeoutUs
  seedTable      := Config.seedTable
  tableCapacity  := none

end Sys2Proof
end

