-- ==== Sys2Proof/Syntax.lean ====
section
/-! DEFINITION. The operations of the core, one constructor for each row of opcode_table.json. -/

namespace Sys2Proof

/-- The two host commands with their operands (30_encoding.md R76, R77) and the seven operations the phase register
selects (R75). -/
inductive Instr where
  /-- ARM: target code NAME = w[15:8], learning timeout T = w[63:32] in ms (43_learning.md R161). -/
  | arm (name : U8) (timeout : U32)
  /-- SNAPSHOT (42_codetable.md R143). -/
  | snapshot
  /-- BOUNDARY (45_cycle.md R201). -/
  | boundary
  /-- SYNC (40_capture.md R101). -/
  | sync
  /-- EDGE_REC (40_capture.md R104). -/
  | edgeRec
  /-- EDGE_WAIT (40_capture.md R105). -/
  | edgeWait
  /-- DECODE (41_decode.md R120). -/
  | decode
  /-- RESOLVE (44_dispatch.md R180). -/
  | resolve
  /-- HOLD (44_dispatch.md R183). -/
  | hold
  deriving DecidableEq, Repr

end Sys2Proof
end

