-- ==== Sys2Proof/WellFormed.lean ====
section
/-! DEFINITION. What must hold of an instruction and of a configuration before the rules apply to it. -/

namespace Sys2Proof

/-- Every value of every operand is a legal encoding: a bad target or timeout is an operand error that ARM answers with a
status (30_encoding.md R79), so no instruction is ill-formed. -/
def Instr.wellFormed : Instr → Bool
  | .arm _ _  => true
  | .snapshot => true
  | .boundary => true
  | .sync     => true
  | .edgeRec  => true
  | .edgeWait => true
  | .decode   => true
  | .resolve  => true
  | .hold     => true

/-- The keys of a table are pairwise distinct (20_memory.md R53, 70_reset_and_hazards.md R255 a). -/
def keysDistinct (t : List Entry) : Bool := decide ((t.map Entry.key).Nodup)

/-- Every name of a table is a known one (30_encoding.md R74, R255 b). -/
def namesKnown (t : List Entry) : Bool := t.all fun e => decide (e.name ≠ .unknown)

/-- A table has at most TABLE_CAPACITY entries (20_memory.md R54, R255 c). -/
def fitsCapacity (cap : Option Nat) (t : List Entry) : Bool :=
  match cap with
  | none   => true
  | some c => decide (t.length ≤ c)

/-- The three conditions together: the form every table of a run has. -/
def tableWellFormed (cap : Option Nat) (t : List Entry) : Bool :=
  keysDistinct t && namesKnown t && fitsCapacity cap t

/-- A configuration is admitted only when its SEED_TABLE meets R255. -/
def Params.wellFormed (p : Params) : Bool := tableWellFormed p.tableCapacity p.seedTable

/-- The configuration after power-on: the open parameters. Where the opaque seed would break R255 the model has no reset
state for it, and an empty seed stands in its place, so every well-formed choice of the parameters is a value of this
constant and no other is. DESIGN CHOICE, safe, log entry 3. -/
def Config.params : Params :=
  if Config.openParams.wellFormed then Config.openParams else { Config.openParams with seedTable := [] }

end Sys2Proof
end

