-- ==== Sys2Proof/Machine/State.lean ====
section
/-! DEFINITION. The state of the core (10_state.md R20), its ports, the reasons a step stops, and the reset state
(70_reset_and_hazards.md R250). -/

namespace Sys2Proof.Machine

/-- The phase register's values (30_encoding.md R75). Value 7 cannot be written down. -/
inductive Phase where
  | boundary
  | sync
  | edgeRec
  | edgeWait
  | decode
  | resolve
  | hold
  deriving DecidableEq, Repr

/-- The LearningController's state (10_state.md R28). -/
inductive Learn where
  | idle
  | listening (target : ActionName) (deadline : U32)
  deriving DecidableEq, Repr

/-- The level driven on the output line of each known name; true is asserted (R30). -/
structure Outputs where
  power : Bool
  up    : Bool
  down  : Bool
  left  : Bool
  right : Bool
  menu  : Bool
  deriving DecidableEq, Repr

/-- The sticky model fault (60_exceptions.md R226). -/
inductive FaultReason where
  /-- a bind of a new key into a full finite table (20_memory.md R54) -/
  | tableFull
  /-- a read of an element that holds no value (10_state.md R36) -/
  | unwrittenRead
  deriving DecidableEq, Repr

/-- The status of a response (30_encoding.md R81). -/
inductive Status where
  | ok
  | invalidTarget
  | busy
  | invalidTimeout
  | illegalCommand
  deriving DecidableEq, Repr

/-- The payload of a response (R80, R89). -/
inductive Payload where
  | empty
  /-- SNAPSHOT's answer: the count and one 40-bit word for each entry -/
  | snapshot (count : U32) (entries : List (BitVec 40))
  deriving DecidableEq, Repr

/-- A response record (R80). -/
structure Response where
  status  : Status
  payload : Payload
  deriving DecidableEq, Repr

/-- An event, with the fields its kind uses (R87). -/
inductive Event where
  | undecodable
  | decodedKnown (name : ActionName) (code : Code)
  | decodedUnknown (code : Code)
  | learnArmed (target : ActionName)
  | learnBound (target : ActionName) (code : Code)
  | learnTimeout (target : ActionName)
  deriving DecidableEq, Repr

/-- The core: the elements of R20, the parameters of 00_scope.md R7, and the ports of R47. -/
structure State where
  /-- the machine's parameters, which no step writes (log entry 3) -/
  cfg       : Params
  /-- the inputs this step reads (log entry 1) -/
  inp       : Sample
  /-- the samples lined up for later steps, oldest first (log entry 1) -/
  queue     : List Sample
  /-- how many free samples have been drawn (log entry 1) -/
  draws     : Nat
  /-- `phase` -/
  phase     : Phase
  /-- `sync_t0_ms`; `none` is the spec's "no value", as in every option below (R36, log entry 4) -/
  syncT0Ms  : Option U32
  /-- `edge_t0_us` -/
  edgeT0Us  : Option U32
  /-- `edge_level` -/
  edgeLevel : Option Bool
  /-- `pulse_n` -/
  pulseN    : Nat
  /-- `buf[0..99]` -/
  buf       : Vector (Option U32) 100
  /-- `code_valid` -/
  codeValid : Bool
  /-- `code` -/
  code      : Option Code
  /-- `table` -/
  table     : List Entry
  /-- `learn` -/
  learn     : Learn
  /-- `out` -/
  out       : Outputs
  /-- `hold_name` -/
  holdName  : Option ActionName
  /-- `hold_t0_ms` -/
  holdT0Ms  : Option U32
  /-- `faulted` -/
  faulted   : Option FaultReason
  /-- the response port: what the latest step answered (R46, log entry 2) -/
  resp      : Option Response
  /-- the event port: what the latest step emitted, in order (R46, log entry 2) -/
  events    : List Event
  deriving DecidableEq, Repr

/-- Why a step stops the model. -/
inductive Fault where
  /-- Raised by `step` when `faulted` is set and `rst` is not asserted: the core then has no step (45_cycle.md R207).
  Safe: the spec gives no step there. -/
  | coreFaulted (r : FaultReason)
  /-- Raised by EDGE_WAIT when a level change would append at an index of 100 or above, which `buf` does not have
  (20_memory.md R51). No run reaches it. Safe: the model stops (log entry 11). -/
  | bufferIndex
  deriving DecidableEq, Repr

/-- Why the model has no meaning for a step. -/
inductive Refusal where
  /-- Raised by `exec` for an instruction that has no meaning yet. Safe: the model stops. -/
  | notModelled (mnemonic : String)
  /-- Raised by `step` when `rst` is asserted on a configuration that violates 70_reset_and_hazards.md R255: the model has no
  reset state for it. Safe: the model stops (log entry 14). -/
  | badConfiguration
  deriving DecidableEq, Repr

/-- Every output line deasserted (R250). -/
def Outputs.allLow : Outputs := ⟨false, false, false, false, false, false⟩

/-- The Reset column of R20, for the parameters `p` and the environment's next sample, queue and draw count. -/
def State.resetWith (p : Params) (x : Sample) (q : List Sample) (d : Nat) : State where
  cfg       := p
  inp       := x
  queue     := q
  draws     := d
  phase     := .boundary
  syncT0Ms  := none
  edgeT0Us  := none
  edgeLevel := none
  pulseN    := 0
  buf       := Vector.replicate 100 none
  codeValid := false
  code      := none
  table     := p.seedTable
  learn     := .idle
  out       := Outputs.allLow
  holdName  := none
  holdT0Ms  := none
  faulted   := none
  resp      := none
  events    := []

/-- The machine right after reset: the open parameters, and a free sample as its first inputs. -/
def State.reset : State := State.resetWith Config.params (Config.freeSample 0) [] 1

end Sys2Proof.Machine
end

