-- ==== Sys2Proof/Machine/Flags.lean ====
section
/-! DEFINITION. The two elements that act as flags (10_state.md R32): `code_valid` with its `code`, and `faulted`. -/

namespace Sys2Proof.Machine

/-- DECODE's verdict (41_decode.md R120): a Code, or none. A rejected sequence leaves `code` without a value (10_state.md
R26, log entry 7). -/
def State.setVerdict (c : Option Code) (s : State) : State :=
  { s with codeValid := c.isSome, code := c }

/-- The value `code` holds for a reader: none while `code_valid` is 0 (10_state.md R26, 93_implementation_defined.md U7). -/
def readCode (s : State) : Option Code := if s.codeValid then s.code else none

/-- Setting the sticky fault (60_exceptions.md R226). -/
def State.setFault (r : FaultReason) (s : State) : State := { s with faulted := some r }

end Sys2Proof.Machine
end

