-- ==== Sys2Proof/Decode.lean ====
section
/-! DEFINITION. Decoding the phase register and the command word (30_encoding.md R75 to R79), and the encoder. -/

namespace Sys2Proof

/-- What selects an operation: the 3-bit phase register (R75), or the 64-bit word on the command port (R76). -/
inductive Encoded where
  | phase (v : BitVec 3)
  | command (w : BitVec 64)
  deriving DecidableEq, Repr

/-- Why a word is no operation (R75, R79). -/
inductive DecodeError where
  /-- phase value 7, which is never held -/
  | phaseNeverHeld
  /-- OP 0x0 or 0x3 to 0xF -/
  | reservedOp
  /-- an ARM word with a nonzero RSV0 or RSV1 -/
  | armReservedField
  /-- a SNAPSHOT word with a bit set in [63:4] -/
  | snapshotReservedField
  deriving DecidableEq, Repr

/-- The decoder's answer. -/
inductive Decoded where
  | instr (i : Instr)
  | rejected (e : DecodeError)
  deriving DecidableEq, Repr

/-! Fields of the command word (R76). -/

def cmdOp (w : BitVec 64) : BitVec 4 := w.extractLsb' 0 4
def cmdRsv0 (w : BitVec 64) : BitVec 4 := w.extractLsb' 4 4
def cmdName (w : BitVec 64) : U8 := w.extractLsb' 8 8
def cmdRsv1 (w : BitVec 64) : BitVec 16 := w.extractLsb' 16 16
def cmdArg (w : BitVec 64) : U32 := w.extractLsb' 32 32

/-- Everything above OP: what must be 0 in a SNAPSHOT word (R78). -/
def cmdAboveOp (w : BitVec 64) : BitVec 60 := w.extractLsb' 4 60

/-- R78: classifying a command word, in the order of the rule. -/
def decodeCommand (w : BitVec 64) : Decoded :=
  if cmdOp w = 1 then
    if cmdRsv0 w = 0 ∧ cmdRsv1 w = 0 then .instr (.arm (cmdName w) (cmdArg w))
    else .rejected .armReservedField
  else if cmdOp w = 2 then
    if cmdAboveOp w = 0 then .instr .snapshot else .rejected .snapshotReservedField
  else .rejected .reservedOp

/-- R75: the seven values of the phase register. -/
def decodePhase (v : BitVec 3) : Decoded :=
  if v = 0 then .instr .boundary
  else if v = 1 then .instr .sync
  else if v = 2 then .instr .edgeRec
  else if v = 3 then .instr .edgeWait
  else if v = 4 then .instr .decode
  else if v = 5 then .instr .resolve
  else if v = 6 then .instr .hold
  else .rejected .phaseNeverHeld

def decode : Encoded → Decoded
  | .phase v   => decodePhase v
  | .command w => decodeCommand w

/-- The word of an ARM command (R76): ARG, RSV1, NAME, RSV0, OP. -/
def encodeArm (name : U8) (timeout : U32) : BitVec 64 :=
  timeout ++ (0 : BitVec 16) ++ name ++ (0 : BitVec 4) ++ (1 : BitVec 4)

def encode : Instr → Encoded
  | .arm n t  => .command (encodeArm n t)
  | .snapshot => .command 2
  | .boundary => .phase 0
  | .sync     => .phase 1
  | .edgeRec  => .phase 2
  | .edgeWait => .phase 3
  | .decode   => .phase 4
  | .resolve  => .phase 5
  | .hold     => .phase 6

/-- One row of opcode_table.json: its format, and the match and mask over its bits. -/
structure OpcodeRow where
  mnemonic  : String
  isCommand : Bool
  pattern   : BitVec 64
  mask      : BitVec 64
  deriving DecidableEq, Repr

/-- opcode_table.json, row by row. -/
def opcodeRow : Instr → OpcodeRow
  | .arm _ _  => ⟨"ARM", true, 0x0000000000000001, 0x00000000FFFF00FF⟩
  | .snapshot => ⟨"SNAPSHOT", true, 0x0000000000000002, 0xFFFFFFFFFFFFFFFF⟩
  | .boundary => ⟨"BOUNDARY", false, 0x0, 0x7⟩
  | .sync     => ⟨"SYNC", false, 0x1, 0x7⟩
  | .edgeRec  => ⟨"EDGE_REC", false, 0x2, 0x7⟩
  | .edgeWait => ⟨"EDGE_WAIT", false, 0x3, 0x7⟩
  | .decode   => ⟨"DECODE", false, 0x4, 0x7⟩
  | .resolve  => ⟨"RESOLVE", false, 0x5, 0x7⟩
  | .hold     => ⟨"HOLD", false, 0x6, 0x7⟩

def Encoded.isCommand : Encoded → Bool
  | .phase _   => false
  | .command _ => true

def Encoded.bits : Encoded → BitVec 64
  | .phase v   => v.zeroExtend 64
  | .command w => w

/-- A row takes a word when the format is the row's and the bits under the mask are the pattern. -/
def OpcodeRow.takes (r : OpcodeRow) (e : Encoded) : Bool :=
  (r.isCommand == e.isCommand) && (e.bits &&& r.mask == r.pattern)

/-- The word opcode_table.json numbers: a phase row has 3 bits, at most one byte, and a command row more than one byte of
its 64, those above `nbits` being 0 (log entry 8). -/
def encodedOfTableWord (nbits w : Nat) : Option Encoded :=
  if nbits ≤ 8 then
    if w < 8 then some (.phase (BitVec.ofNat 3 w)) else none
  else if w < 2 ^ 64 then some (.command (BitVec.ofNat 64 w)) else none

/-- What the decoder reads from a word of opcode_table.json. -/
def decodeTableWord (nbits w : Nat) : Option Instr :=
  match encodedOfTableWord nbits w with
  | none   => none
  | some e =>
    match decode e with
    | .instr i    => some i
    | .rejected _ => none

end Sys2Proof
end

