-- ==== Sys2Proof/Machine/Operands.lean ====
section
/-! DEFINITION. The fixed parameters of 00_scope.md R7, the comparisons of R10, R11 and 43_learning.md R166, and the
encodings of 30_encoding.md. -/

namespace Sys2Proof.Machine

/-! Fixed parameters (R7). -/

def pulsesMax : Nat := 100
def pulsesMin : Nat := 66
def hdrMarkLo : U32 := 8500
def hdrMarkHi : U32 := 9500
def hdrSpaceLo : U32 := 4000
def hdrSpaceHi : U32 := 5000
def bit0Lo : U32 := 400
def bit0Hi : U32 := 700
def bit1Lo : U32 := 1500
def bit1Hi : U32 := 1800
def assertMs : U32 := 400

/-- The learning timeout is below 2^31 (R7, 43_learning.md R164). -/
def timeoutLimit : U32 := 0x80000000

/-! Time and windows. -/

/-- R10: the elapsed time, correct under wraparound. -/
def udiff32 (now before : U32) : U32 := now - before

/-- A wait has ended: the elapsed time has reached the limit (92_eei_decisions.md D4, D24). -/
def timedOut (now start limit : U32) : Bool := decide (limit ≤ udiff32 now start)

/-- R11: an open interval. -/
def inOpen (v lo hi : U32) : Bool := decide (lo < v) && decide (v < hi)

/-- 43_learning.md R166: the learning deadline has been reached. -/
def expired (now deadline : U32) : Bool := decide (udiff32 now deadline < 0x80000000)

/-- 43_learning.md R165: the deadline of a session armed at `now`. -/
def deadlineOf (now timeout : U32) : U32 := now + timeout

/-! Codes (30_encoding.md R71). -/

/-- The code word: b0 in the most significant byte. -/
def codeWord (c : Code) : U32 := c.b0 ++ c.b1 ++ c.b2 ++ c.b3

/-- The Code a code word carries. -/
def codeOfWord (w : U32) : Code where
  b0 := w.extractLsb' 24 8
  b1 := w.extractLsb' 16 8
  b2 := w.extractLsb' 8 8
  b3 := w.extractLsb' 0 8

/-! ActionNames (30_encoding.md R73, R74). -/

/-- The 8-bit value of a name. -/
def nameCode : ActionName → U8
  | .unknown => 0x00
  | .power   => 0x01
  | .up      => 0x02
  | .down    => 0x03
  | .left    => 0x04
  | .right   => 0x05
  | .menu    => 0x06

/-- The name of an 8-bit value; an unassigned value is no name, and reads as the sentinel. -/
def nameOfCode (v : U8) : ActionName :=
  if v = 0x01 then .power
  else if v = 0x02 then .up
  else if v = 0x03 then .down
  else if v = 0x04 then .left
  else if v = 0x05 then .right
  else if v = 0x06 then .menu
  else .unknown

/-- R74: the value is that of a known name. -/
def isKnownCode (v : U8) : Bool := decide (0x01 ≤ v) && decide (v ≤ 0x06)

/-- R74: the name is a known one. -/
def isKnown (n : ActionName) : Bool := isKnownCode (nameCode n)

/-! Phases (30_encoding.md R75). -/

/-- The value the phase register holds. -/
def phaseValue : Phase → BitVec 3
  | .boundary => 0
  | .sync     => 1
  | .edgeRec  => 2
  | .edgeWait => 3
  | .decode   => 4
  | .resolve  => 5
  | .hold     => 6

/-- The phase of a value; 7 is never held (R75), so it has none. -/
def phaseOfValue (v : BitVec 3) : Option Phase :=
  if v = 0 then some .boundary
  else if v = 1 then some .sync
  else if v = 2 then some .edgeRec
  else if v = 3 then some .edgeWait
  else if v = 4 then some .decode
  else if v = 5 then some .resolve
  else if v = 6 then some .hold
  else none

/-! Responses and events (30_encoding.md R81, R86, R87, R89). -/

def statusCode : Status → U8
  | .ok             => 0x00
  | .invalidTarget  => 0x01
  | .busy           => 0x02
  | .invalidTimeout => 0x03
  | .illegalCommand => 0x04

/-- A response that carries a status alone (R80). -/
def bareResponse (st : Status) : Response := ⟨st, .empty⟩

/-- The 40-bit word of a SNAPSHOT entry (R89). -/
def entryWord (e : Entry) : BitVec 40 := codeWord e.key ++ nameCode e.name

/-- SNAPSHOT's answer: every entry in table order (42_codetable.md R143, R144; the u32 count, log entry 15). -/
def snapshotResponse (t : List Entry) : Response :=
  ⟨.ok, .snapshot (BitVec.ofNat 32 t.length) (t.map entryWord)⟩

/-- The 48-bit record `kind ++ name ++ code_word` (R86). -/
def eventRecord (kind : U8) (name : U8) (code : U32) : BitVec 48 := kind ++ name ++ code

/-- The record of an event (R87). -/
def eventWord : Event → BitVec 48
  | .undecodable      => eventRecord 0x01 0 0
  | .decodedKnown n c => eventRecord 0x02 (nameCode n) (codeWord c)
  | .decodedUnknown c => eventRecord 0x03 (nameCode .unknown) (codeWord c)
  | .learnArmed n     => eventRecord 0x04 (nameCode n) 0
  | .learnBound n c   => eventRecord 0x05 (nameCode n) (codeWord c)
  | .learnTimeout n   => eventRecord 0x06 (nameCode n) 0

end Sys2Proof.Machine
end

