-- ==== Sys2Proof/Machine/Ops.lean ====
section
/-! DEFINITION. The named operations the meanings share: ports, faults, the pulse buffer, the code table, the output lines,
the environment, and what every BOUNDARY step does. -/

namespace Sys2Proof.Machine

/-- The outcome of a step of this machine. -/
abbrev Result := Host.Outcome State Fault Refusal

/-! Ports and sequencing. -/

/-- The step's outputs: its response, if it takes a command, and its events in order (10_state.md R46). -/
def State.drive (r : Option Response) (es : List Event) (s : State) : State :=
  { s with resp := r, events := es }

/-- `phase <- P` (00_scope.md R12). -/
def State.goto (p : Phase) (s : State) : State := { s with phase := p }

/-- `raise Fault(r)` (60_exceptions.md R226): the state before the step with `faulted` set, no response and no event. -/
def raiseFault (r : FaultReason) (s : State) : Result := .next ((s.setFault r).drive none [])

/-- A read of an element that may hold no value (10_state.md R36): without one, the step raises UnwrittenRead. -/
def withValue {α : Type} (v : Option α) (s : State) (k : α → Result) : Result :=
  match v with
  | some a => k a
  | none   => raiseFault .unwrittenRead s

/-! The pulse buffer (20_memory.md R50, R51). -/

/-- Reading entry `k`: only an entry below `pulse_n` holds a value (93_implementation_defined.md U7, log entry 6). -/
def readPulse (s : State) (k : Nat) : Option U32 :=
  if k < s.pulseN then (s.buf[k]?).join else none

/-- The append of R51, at index `pulse_n`. -/
def State.appendPulse (d : U32) (s : State) : State :=
  { s with buf := s.buf.setIfInBounds s.pulseN (some d), pulseN := s.pulseN + 1 }

/-- EDGE_REC's sample of level and time (40_capture.md R104). -/
def State.recordEdge (level : Bool) (t : U32) (s : State) : State :=
  { s with edgeLevel := some level, edgeT0Us := some t }

/-! The code table (42_codetable.md). -/

/-- R140: the name of the entry whose key is `c`. -/
def tableLookup (c : Code) : List Entry → Option ActionName
  | []     => none
  | e :: t => if e.key = c then some e.name else tableLookup c t

/-- Overwriting the name of the entry whose key is `c`, in place (R141; keys are unique, log entry 18). -/
def tableOverwrite (c : Code) (n : ActionName) : List Entry → List Entry
  | []     => []
  | e :: t => if e.key = c then ⟨e.key, n⟩ :: t else e :: tableOverwrite c n t

/-- The table is full: TABLE_CAPACITY is finite and reached (R141, 20_memory.md R54). -/
def tableFull (cap : Option Nat) (t : List Entry) : Bool :=
  match cap with
  | none   => false
  | some m => t.length == m

/-- R141: overwrite, or append; `none` where the table is full and the bind raises TableFull. -/
def tableBind (cap : Option Nat) (c : Code) (n : ActionName) (t : List Entry) : Option (List Entry) :=
  if (tableLookup c t).isSome then some (tableOverwrite c n t)
  else if tableFull cap t then none
  else some (t ++ [⟨c, n⟩])

def State.setTable (t : List Entry) (s : State) : State := { s with table := t }

def State.setLearn (l : Learn) (s : State) : State := { s with learn := l }

/-! The output lines (10_state.md R30, R31). -/

/-- The level of the line of a name; the sentinel has no line (log entry 13). -/
def outGet (o : Outputs) : ActionName → Bool
  | .unknown => false
  | .power   => o.power
  | .up      => o.up
  | .down    => o.down
  | .left    => o.left
  | .right   => o.right
  | .menu    => o.menu

/-- Driving the line of a name; the sentinel has no line (log entry 13). -/
def outSet (o : Outputs) (n : ActionName) (v : Bool) : Outputs :=
  match n with
  | .unknown => o
  | .power   => { o with power := v }
  | .up      => { o with up := v }
  | .down    => { o with down := v }
  | .left    => { o with left := v }
  | .right   => { o with right := v }
  | .menu    => { o with menu := v }

/-- Asserting the line of `n` and starting its hold (44_dispatch.md R181). -/
def State.assertLine (n : ActionName) (t : U32) (s : State) : State :=
  { s with out := outSet s.out n true, holdName := some n, holdT0Ms := some t }

/-- Deasserting the line of `n` (44_dispatch.md R183). -/
def State.deassertLine (n : ActionName) (s : State) : State :=
  { s with out := outSet s.out n false }

/-! What every BOUNDARY step does (45_cycle.md R201). -/

/-- Discarding the previous capture and code (20_memory.md R64) and starting the idle wait at `now`. -/
def State.startCycle (now : U32) (s : State) : State :=
  { s with pulseN := 0, codeValid := false, code := none, syncT0Ms := some now, phase := .sync }

/-- A BOUNDARY step whose command, if any, leaves the learning state `l` and gives these outputs. -/
def boundaryStep (l : Learn) (r : Option Response) (es : List Event) (s : State) : State :=
  ((s.setLearn l).startCycle s.inp.nowMs).drive r es

/-! The environment (10_state.md R40 to R47). -/

/-- Taking the inputs of the next step: the next sample in line, or a free one (log entry 1). -/
def State.advance (s : State) : State :=
  match s.queue with
  | x :: q => { s with inp := x, queue := q }
  | []     => { s with inp := Config.freeSample s.draws, draws := s.draws + 1 }

/-- Running on from an operation's outcome: the next step reads the next sample. -/
def advanceOutcome : Result → Result
  | .next s    => .next s.advance
  | .fault r   => .fault r
  | .refused r => .refused r

/-- A step with `rst` asserted (70_reset_and_hazards.md R251): the reset state, whatever the phase and even when faulted.
A configuration that violates R255 has no reset state (log entry 14). -/
def resetStep (s : State) : Result :=
  if s.cfg.wellFormed then .next (State.resetWith s.cfg s.inp s.queue s.draws).advance
  else .refused .badConfiguration

/-! Selecting the operation. -/

/-- What selects this step's operation: the command word at BOUNDARY when one is presented (45_cycle.md R202), else the
phase register (10_state.md R21). -/
def fetchWord (s : State) : Encoded :=
  match s.phase, s.inp.cmd with
  | .boundary, some w => .command w
  | p, _              => .phase (phaseValue p)

/-- The operation of this step. An illegal command word is BOUNDARY's own to answer (30_encoding.md R83, log entry 5). -/
def fetch (s : State) : Instr :=
  match decode (fetchWord s) with
  | .instr i    => i
  | .rejected _ => .boundary

/-- Placing a phase operation or a command where the next step takes it (log entry 9). -/
def place (e : Encoded) (s : State) : State :=
  match e with
  | .command w =>
    { s with phase := .boundary, inp := { s.inp with rst := false, cmd := some w }, faulted := none }
  | .phase v   =>
    match phaseOfValue v with
    | none           => s
    | some .boundary =>
      { s with phase := .boundary, inp := { s.inp with rst := false, cmd := none }, faulted := none }
    | some p         => { s with phase := p, inp := { s.inp with rst := false }, faulted := none }

end Sys2Proof.Machine
end

