-- ==== Sys2Proof/Machine/Capture.lean ====
section
/-! DEFINITION. PulseCapture (40_capture.md): SYNC, EDGE_REC and EDGE_WAIT. -/

namespace Sys2Proof.Machine

/-- R101 to R103: where SYNC goes from this step's inputs, the wait having begun at `t0`; the timeout is tested first. -/
def syncNext (limit t0 : U32) (x : Sample) : Phase :=
  if timedOut x.nowMs t0 limit then .decode
  else if x.line = false then .edgeRec
  else .sync

/-- SYNC (R101). -/
def execSync (s : State) : Result :=
  withValue s.syncT0Ms s fun t0 =>
    .next ((s.goto (syncNext s.cfg.idleTimeoutMs t0 s.inp)).drive none [])

/-- EDGE_REC (R104). -/
def execEdgeRec (s : State) : Result :=
  .next (((s.recordEdge s.inp.line s.inp.nowUs).goto .edgeWait).drive none [])

/-- The append of a level change (R105), and the full buffer (R107). An index `buf` does not have is no access (log entry
11). -/
def appendStep (d : U32) (s : State) : Result :=
  if s.pulseN < pulsesMax then
    .next (((s.appendPulse d).goto (if s.pulseN + 1 = pulsesMax then .decode else .edgeRec)).drive none [])
  else .fault .bufferIndex

/-- EDGE_WAIT (R105): the timeout is tested before the level (R106). -/
def execEdgeWait (s : State) : Result :=
  withValue s.edgeT0Us s fun t0 =>
    if timedOut s.inp.nowUs t0 s.cfg.pulseTimeoutUs then .next ((s.goto .decode).drive none [])
    else
      withValue s.edgeLevel s fun level =>
        if s.inp.line ≠ level then appendStep (udiff32 s.inp.nowUs t0) s
        else .next ((s.goto .edgeWait).drive none [])

end Sys2Proof.Machine
end

