-- ==== Sys2Proof/Machine/Commands.lean ====
section
/-! DEFINITION. The host commands and BOUNDARY (43_learning.md R161 to R165, 42_codetable.md R143, 45_cycle.md R201). A
command is executed inside the BOUNDARY step that takes it, so its meaning is that whole step (log entry 5). -/

namespace Sys2Proof.Machine

/-- The status of ARM, in the precedence of 30_encoding.md R82 (43_learning.md R162 to R164). -/
def armStatus (name : U8) (timeout : U32) (l : Learn) : Status :=
  if isKnownCode name = false then .invalidTarget
  else if timeoutLimit ≤ timeout then .invalidTimeout
  else if l ≠ .idle then .busy
  else .ok

/-- The learning state ARM leaves (43_learning.md R161, R165). -/
def armLearn (name : U8) (timeout : U32) (s : State) : Learn :=
  if armStatus name timeout s.learn = .ok then
    .listening (nameOfCode name) (deadlineOf s.inp.nowMs timeout)
  else s.learn

/-- The events of ARM: LEARN_ARMED when it succeeds, else none. -/
def armEvents (name : U8) (timeout : U32) (l : Learn) : List Event :=
  if armStatus name timeout l = .ok then [.learnArmed (nameOfCode name)] else []

/-- The BOUNDARY step that takes an ARM command. -/
def armStep (name : U8) (timeout : U32) (s : State) : State :=
  boundaryStep (armLearn name timeout s) (some (bareResponse (armStatus name timeout s.learn)))
    (armEvents name timeout s.learn) s

/-- The BOUNDARY step that takes a SNAPSHOT command: the table before the step, which changes nothing else. -/
def snapshotStep (s : State) : State :=
  boundaryStep s.learn (some (snapshotResponse s.table)) [] s

/-- ARM (43_learning.md R161). -/
def execArm (name : U8) (timeout : U32) (s : State) : Result := .next (armStep name timeout s)

/-- SNAPSHOT (42_codetable.md R143). -/
def execSnapshot (s : State) : Result := .next (snapshotStep s)

/-- The BOUNDARY step that answers an illegal command word (30_encoding.md R83). -/
def illegalStep (s : State) : State := boundaryStep s.learn (some (bareResponse .illegalCommand)) [] s

/-- The BOUNDARY step that takes a command. No command word is read as a phase operation, so those arms are never met. -/
def commandStep (i : Instr) (s : State) : State :=
  match i with
  | .arm n t  => armStep n t s
  | .snapshot => snapshotStep s
  | .boundary => illegalStep s
  | .sync     => illegalStep s
  | .edgeRec  => illegalStep s
  | .edgeWait => illegalStep s
  | .decode   => illegalStep s
  | .resolve  => illegalStep s
  | .hold     => illegalStep s

/-- The BOUNDARY step that takes a command word, as the decoder reads it (30_encoding.md R78). -/
def decodedStep (d : Decoded) (s : State) : State :=
  match d with
  | .instr i    => commandStep i s
  | .rejected _ => illegalStep s

/-- The BOUNDARY step on the command its inputs present, if they present one (45_cycle.md R201, R202). -/
def boundaryTake (s : State) : State :=
  match s.inp.cmd with
  | none   => boundaryStep s.learn none [] s
  | some w => decodedStep (decodeCommand w) s

/-- BOUNDARY (45_cycle.md R201). -/
def execBoundary (s : State) : Result := .next (boundaryTake s)

end Sys2Proof.Machine
end

