-- ==== Sys2Proof/Machine/Decoder.lean ====
section
/-! DEFINITION. ProtocolDecoder (41_decode.md): the pure function of R129 and the DECODE step. -/

namespace Sys2Proof.Machine

/-- What the decoder answers on a buffer. -/
inductive Verdict where
  | reject
  | accept (w : U32)
  /-- an entry that had to be examined holds no value (10_state.md R36) -/
  | unwritten
  deriving DecidableEq, Repr

/-- R124: the class of a data-bit space. -/
def classify (v : U32) : Option Bool :=
  if inOpen v bit0Lo bit0Hi then some false
  else if inOpen v bit1Lo bit1Hi then some true
  else none

/-- R126: bit `i` of the sequence is bit `31 - i` of the code word. -/
def bitAt (i : Nat) (b : Bool) : U32 := (BitVec.ofBool b).zeroExtend 32 <<< (31 - i)

/-- Data bits 0 to n-1 (R124 to R126), read in sequence order from the entries `3 + 2i`. -/
def necBits (rd : Nat → Option U32) : Nat → Verdict
  | 0     => .accept 0
  | i + 1 =>
    match necBits rd i with
    | .accept w =>
      match rd (3 + 2 * i) with
      | none   => .unwritten
      | some v =>
        match classify v with
        | some b => .accept (w ||| bitAt i b)
        | none   => .reject
    | other => other

/-- One header window (R122, R123), before the rest of the sequence is judged. -/
def necHeader (v : Option U32) (lo hi : U32) (rest : Verdict) : Verdict :=
  match v with
  | none   => .unwritten
  | some d => if inOpen d lo hi then rest else .reject

/-- R129: `nec_decode` on a sequence of `n` entries. -/
def necDecode (rd : Nat → Option U32) (n : Nat) : Verdict :=
  if n < pulsesMin then .reject
  else necHeader (rd 0) hdrMarkLo hdrMarkHi (necHeader (rd 1) hdrSpaceLo hdrSpaceHi (necBits rd 32))

/-- The step's result, given the decoder's verdict (R120). -/
def decodeStep (v : Verdict) (s : State) : Result :=
  match v with
  | .unwritten => raiseFault .unwrittenRead s
  | .accept w  => .next (((s.setVerdict (some (codeOfWord w))).goto .resolve).drive none [])
  | .reject    => .next (((s.setVerdict none).goto .resolve).drive none [])

/-- DECODE (R120). -/
def execDecode (s : State) : Result := decodeStep (necDecode (readPulse s) s.pulseN) s

end Sys2Proof.Machine
end

