-- ==== Sys2Proof/Machine/Resolve.lean ====
section
/-! DEFINITION. RESOLVE and HOLD (44_dispatch.md), with the learning branch of 43_learning.md R167. -/

namespace Sys2Proof.Machine

/-- 44_dispatch.md R186: a non-empty capture that did not decode is reported, before the step's other event. -/
def undecodableEvents (s : State) : List Event :=
  if 1 ≤ s.pulseN ∧ s.codeValid = false then [.undecodable] else []

/-- A step that ends the cycle, with these events after UNDECODABLE. -/
def endCycle (es : List Event) (s : State) : Result :=
  .next ((s.goto .boundary).drive none (undecodableEvents s ++ es))

/-- The bind of `LearnResolve` (43_learning.md R167): learning succeeds, or a full table faults (42_codetable.md R141). -/
def learnBind (target : ActionName) (c : Code) (s : State) : Result :=
  match tableBind s.cfg.tableCapacity c target s.table with
  | none   => raiseFault .tableFull s
  | some t => endCycle [.learnBound target c] ((s.setTable t).setLearn .idle)

/-- 43_learning.md R167: expiry is tested before the code. -/
def learnResolve (target : ActionName) (deadline : U32) (s : State) : Result :=
  if expired s.inp.nowMs deadline then endCycle [.learnTimeout target] (s.setLearn .idle)
  else if s.codeValid then withValue (readCode s) s fun c => learnBind target c s
  else endCycle [] s

/-- Asserting the line of a recognised name and entering HOLD (44_dispatch.md R181). -/
def dispatchKnown (n : ActionName) (c : Code) (s : State) : Result :=
  .next (((s.assertLine n s.inp.nowMs).goto .hold).drive none (undecodableEvents s ++ [.decodedKnown n c]))

/-- The dispatch branch on a decoded code (44_dispatch.md R181, R182). -/
def dispatchCode (c : Code) (s : State) : Result :=
  match tableLookup c s.table with
  | some n => if isKnown n then dispatchKnown n c s else endCycle [.decodedUnknown c] s
  | none   => endCycle [.decodedUnknown c] s

/-- RESOLVE (44_dispatch.md R180). -/
def execResolve (s : State) : Result :=
  match s.learn with
  | .listening target deadline => learnResolve target deadline s
  | .idle =>
    if s.codeValid then withValue (readCode s) s fun c => dispatchCode c s
    else endCycle [] s

/-- HOLD (44_dispatch.md R183). -/
def execHold (s : State) : Result :=
  withValue s.holdT0Ms s fun t0 =>
    if timedOut s.inp.nowMs t0 assertMs then
      withValue s.holdName s fun n => .next (((s.deassertLine n).goto .boundary).drive none [])
    else .next ((s.goto .hold).drive none [])

end Sys2Proof.Machine
end

