-- ==== Sys2Proof/Machine/Dispatch.lean ====
section
/-! DEFINITION. The meaning of each instruction, one arm per constructor. -/

namespace Sys2Proof.Machine

def exec (i : Instr) (s : State) : Host.Outcome State Fault Refusal :=
  match i with
  | .arm name timeout => Sys2Proof.Machine.execArm name timeout s
  | .snapshot => Sys2Proof.Machine.execSnapshot s
  | .boundary => Sys2Proof.Machine.execBoundary s
  | .sync => Sys2Proof.Machine.execSync s
  | .edgeRec => Sys2Proof.Machine.execEdgeRec s
  | .edgeWait => Sys2Proof.Machine.execEdgeWait s
  | .decode => Sys2Proof.Machine.execDecode s
  | .resolve => Sys2Proof.Machine.execResolve s
  | .hold => Sys2Proof.Machine.execHold s

end Sys2Proof.Machine
end

