-- ==== Sys2Proof/Machine/Step.lean ====
section
/-! DEFINITION. One step of the core (10_state.md R47): reset, or no step when faulted, or the operation selected. -/

namespace Sys2Proof.Machine

/-- R47: `rst` first (70_reset_and_hazards.md R251); then the faulted state, which has no step (45_cycle.md R207, log entry
10); else the operation that the phase, or the command at BOUNDARY, selects. -/
def step (s : State) : Host.Outcome State Fault Refusal :=
  if s.inp.rst then resetStep s
  else
    match s.faulted with
    | some r => .fault (.coreFaulted r)
    | none   => advanceOutcome (exec (fetch s) s)

/-- `s` with a word of opcode_table.json placed where the next step takes its operation from (log entries 8 and 9). -/
def State.withFetchWord (s : State) (nbits w : Nat) : State :=
  match Sys2Proof.encodedOfTableWord nbits w with
  | none   => s
  | some e => place e s

end Sys2Proof.Machine
end

