-- ==== Sys2Proof/Safety.lean ====
section
/-! DEFINITION. The terms claims use: the invariant of the machine, what an operation leaves alone, the environment's
premises, and the waveforms a capture sees. -/

namespace Sys2Proof.Machine

/-! Frames. -/

/-- The parameters and the environment are as before: an operation writes neither. -/
def sameMachine (s t : State) : Prop :=
  t.cfg = s.cfg ∧ t.inp = s.inp ∧ t.queue = s.queue ∧ t.draws = s.draws

/-- The registers of the edge timing are as before. -/
def sameEdge (s t : State) : Prop := t.edgeT0Us = s.edgeT0Us ∧ t.edgeLevel = s.edgeLevel

/-- The pulse buffer and its count are as before. -/
def samePulses (s t : State) : Prop := t.pulseN = s.pulseN ∧ t.buf = s.buf

/-- The decoder's output register is as before. -/
def sameCode (s t : State) : Prop := t.codeValid = s.codeValid ∧ t.code = s.code

/-- The code table and the learning state are as before. -/
def sameLearning (s t : State) : Prop := t.table = s.table ∧ t.learn = s.learn

/-- The output lines and the hold registers are as before. -/
def sameOutputs (s t : State) : Prop :=
  t.out = s.out ∧ t.holdName = s.holdName ∧ t.holdT0Ms = s.holdT0Ms

/-- The step gave no response and emitted nothing. -/
def silent (t : State) : Prop := t.resp = none ∧ t.events = []

/-- The state before the step with `faulted` set, no response and no event: all that `raise Fault(r)` does
(60_exceptions.md R226). -/
def faultedFrom (s : State) (r : FaultReason) : State :=
  { s with faulted := some r, resp := none, events := [] }

/-! The invariant. -/

/-- What holds in every state a run from a well-formed reset reaches (10_state.md R25, R28, R36; 20_memory.md R53, R54;
40_capture.md R109; 42_codetable.md R146; 44_dispatch.md R184; 45_cycle.md R206). -/
structure Inv (s : State) : Prop where
  /-- the configuration meets R255 -/
  cfgOk      : s.cfg.wellFormed = true
  /-- keys distinct, names known, within the capacity -/
  tableOk    : tableWellFormed s.cfg.tableCapacity s.table = true
  /-- the seed's keys are never removed or moved -/
  seedKept   : s.cfg.seedTable.map Entry.key <+: s.table.map Entry.key
  /-- a learning target is a known name -/
  learnOk    : ∀ target deadline, s.learn = .listening target deadline → isKnown target = true
  /-- at most 100 entries, and room for one more while a pulse is timed -/
  pulsesOk   : s.pulseN ≤ 100
  pulsesRoom : s.phase = .edgeRec ∨ s.phase = .edgeWait → s.pulseN ≤ 99
  /-- every captured entry holds a value below the pulse timeout -/
  entriesOk  : ∀ k, k < s.pulseN → ∃ d, s.buf[k]? = some (some d) ∧ d < s.cfg.pulseTimeoutUs
  /-- SYNC starts from an empty sequence and a written timestamp -/
  syncOk     : s.phase = .sync → s.pulseN = 0 ∧ s.syncT0Ms.isSome = true
  /-- EDGE_WAIT has a level and a timestamp to compare with -/
  edgeOk     : s.phase = .edgeWait → s.edgeT0Us.isSome = true ∧ s.edgeLevel.isSome = true
  /-- `code` holds a value exactly when `code_valid` is 1, which it is not before DECODE -/
  codeOk     : s.codeValid = s.code.isSome
  codeClear  : s.phase = .sync ∨ s.phase = .edgeRec ∨ s.phase = .edgeWait ∨ s.phase = .decode → s.codeValid = false
  /-- in HOLD exactly the line of `hold_name` is asserted, and in every other phase none is -/
  holdOk     : s.phase = .hold → ∃ n, s.holdName = some n ∧ s.holdT0Ms.isSome = true ∧ isKnown n = true ∧
                 s.out = outSet Outputs.allLow n true
  restOk     : s.phase ≠ .hold → s.out = Outputs.allLow
  /-- the one fault a run can meet is TableFull, with a finite capacity -/
  faultOk    : s.faulted = none ∨ (s.faulted = some .tableFull ∧ s.cfg.tableCapacity ≠ none)

/-! The environment. -/

/-- The premises P1 to P3 of 10_state.md R44 on one clock: `real k` is its real count at the k-th sample. -/
structure ClockPremises (real : Nat → Nat) (sample : Nat → U32) : Prop where
  wraparound : ∀ k, sample k = BitVec.ofNat 32 (real k)
  spacing    : ∀ k, real k ≤ real (k + 1) ∧ real (k + 1) - real k < 2 ^ 31
  progress   : ∀ b, ∃ k, b ≤ real k

/-- A sample of a running core that shows `line` at `us`. -/
def edgeSample (ms : U32) (line : Bool) (us : U32) : Sample := ⟨false, line, us, ms, none⟩

/-- What EDGE_REC and EDGE_WAIT see of pulses of the given durations, the first at `level` from time `us`, each change seen
at its own time and timed from it (ideal polling, 40_capture.md R111). -/
def edgeSamples (ms : U32) (level : Bool) (us : U32) : List U32 → List Sample
  | []      => []
  | d :: ds =>
    edgeSample ms level us :: edgeSample ms (!level) (us + d) :: edgeSamples ms (!level) (us + d) ds

/-- The pulse durations of the frame F(w) of 95_test_vectors.md: header, 32 data bits most significant first, stop mark. -/
def frameDurations (w : U32) : List U32 :=
  [9000, 4500] ++ (List.range 32).flatMap (fun i => [560, if w.getLsbD (31 - i) then 1650 else 550]) ++ [560]

/-- The decoder examines entry `k`: the header pair and the 32 data spaces (41_decode.md R120). -/
def examined (k : Nat) : Prop := k = 0 ∨ k = 1 ∨ ∃ i, i < 32 ∧ k = 3 + 2 * i

/-- The duration stored at entry `k`. -/
def storedPulse (s : State) (k : Nat) : U32 := ((s.buf[k]?).join).getD 0

/-- Every entry the decoder examines is captured and holds a value. -/
def examinedHeld (s : State) : Prop := ∀ k, examined k → readPulse s k = some (storedPulse s k)

end Sys2Proof.Machine
end

