-- ==== Sys2Proof/Certificates/Slice0/Obligations.lean ====
section
/-! DEFINITION. The statements made about the model, from the numbered rules of the spec. -/

open Sys2Proof Sys2Proof.Machine

/-! ## Encodings (30_encoding.md) -/

/-- R75 to R77: decoding the encoding of any instruction, with any operands, gives it back. -/
def Obligations.DecodeOfEncode : Prop :=
  ∀ i : Instr, decode (encode i) = .instr i

/-- R75, R78, R79: a word has one meaning, and no bit of it is ignored. -/
def Obligations.EncodeOfDecode : Prop :=
  ∀ (e : Encoded) (i : Instr), decode e = .instr i → encode i = e

/-- R77, R78: which words are ARM, SNAPSHOT and illegal, by fields and by match and mask, and ARM's operands. -/
def Obligations.CommandClassification : Prop :=
  ∀ w : BitVec 64,
    ((∃ n t, decodeCommand w = .instr (.arm n t)) ↔
      w.extractLsb' 0 4 = 1 ∧ w.extractLsb' 4 4 = 0 ∧ w.extractLsb' 16 16 = 0) ∧
    ((∃ n t, decodeCommand w = .instr (.arm n t)) ↔ w &&& 0x00000000FFFF00FF = 0x0000000000000001) ∧
    (decodeCommand w = .instr .snapshot ↔ w.extractLsb' 0 4 = 2 ∧ w.extractLsb' 4 60 = 0) ∧
    (decodeCommand w = .instr .snapshot ↔ w &&& 0xFFFFFFFFFFFFFFFF = 0x0000000000000002) ∧
    ((∃ e, decodeCommand w = .rejected e) ↔
      ¬ (∃ n t, decodeCommand w = .instr (.arm n t)) ∧ decodeCommand w ≠ .instr .snapshot) ∧
    (∀ n t, decodeCommand w = .instr (.arm n t) → n = w.extractLsb' 8 8 ∧ t = w.extractLsb' 32 32)

/-- R75: the seven values of the phase register, each selecting its operation, and 7, which is never held. -/
def Obligations.PhaseRegisterValues : Prop :=
  phaseValue .boundary = 0 ∧ phaseValue .sync = 1 ∧ phaseValue .edgeRec = 2 ∧ phaseValue .edgeWait = 3 ∧
  phaseValue .decode = 4 ∧ phaseValue .resolve = 5 ∧ phaseValue .hold = 6 ∧
  (∀ p, phaseValue p ≠ 7) ∧ decode (.phase 7) = .rejected .phaseNeverHeld ∧
  decode (.phase 0) = .instr .boundary ∧ decode (.phase 1) = .instr .sync ∧ decode (.phase 2) = .instr .edgeRec ∧
  decode (.phase 3) = .instr .edgeWait ∧ decode (.phase 4) = .instr .decode ∧ decode (.phase 5) = .instr .resolve ∧
  decode (.phase 6) = .instr .hold

/-- opcode_table.json: a word decodes to an instruction exactly when that instruction's row takes it, so no two rows take
one word. -/
def Obligations.OpcodeRowsAgreeWithDecoder : Prop :=
  (∀ e i, decode e = .instr i → (opcodeRow i).takes e = true) ∧
  (∀ e i, (opcodeRow i).takes e = true → ∃ j, decode e = .instr j ∧ opcodeRow j = opcodeRow i)

/-- R79, R85: words written out from the encoding, at least one of each family and of each illegal form. -/
def Obligations.WrittenOutWordsDecode : Prop :=
  decode (.command 0x0000271000000201) = .instr (.arm 0x02 10000) ∧
  decode (.command 0x000000FA00000601) = .instr (.arm 0x06 250) ∧
  decode (.command 0xFFFFFFFF00000201) = .instr (.arm 0x02 0xFFFFFFFF) ∧
  decode (.command 0x0000000000000002) = .instr .snapshot ∧
  decode (.command 0x0000000000000000) = .rejected .reservedOp ∧
  decode (.command 0x000000000000000F) = .rejected .reservedOp ∧
  decode (.command 0x0000271000000211) = .rejected .armReservedField ∧
  decode (.command 0x0000271000010201) = .rejected .armReservedField ∧
  decode (.command 0x0000000000000012) = .rejected .snapshotReservedField ∧
  decode (.command 0x0000000100000002) = .rejected .snapshotReservedField ∧
  decode (.phase 3) = .instr .edgeWait ∧ decode (.phase 6) = .instr .hold

/-- R55, R71: the bytes of a code word, and that a Code and its word determine each other. -/
def Obligations.CodeWordLayout : Prop :=
  (∀ c : Code, (codeWord c).extractLsb' 24 8 = c.b0 ∧ (codeWord c).extractLsb' 16 8 = c.b1 ∧
    (codeWord c).extractLsb' 8 8 = c.b2 ∧ (codeWord c).extractLsb' 0 8 = c.b3 ∧ codeOfWord (codeWord c) = c) ∧
  (∀ w : U32, codeWord (codeOfWord w) = w)

/-- R86, R87: the fields of every event record. -/
def Obligations.EventRecordLayout : Prop :=
  (∀ k n : U8, ∀ c : U32, (eventRecord k n c).extractLsb' 40 8 = k ∧ (eventRecord k n c).extractLsb' 32 8 = n ∧
    (eventRecord k n c).extractLsb' 0 32 = c) ∧
  eventWord .undecodable = eventRecord 0x01 0 0 ∧
  (∀ n c, eventWord (.decodedKnown n c) = eventRecord 0x02 (nameCode n) (codeWord c)) ∧
  (∀ c, eventWord (.decodedUnknown c) = eventRecord 0x03 0 (codeWord c)) ∧
  (∀ n, eventWord (.learnArmed n) = eventRecord 0x04 (nameCode n) 0) ∧
  (∀ n c, eventWord (.learnBound n c) = eventRecord 0x05 (nameCode n) (codeWord c)) ∧
  (∀ n, eventWord (.learnTimeout n) = eventRecord 0x06 (nameCode n) 0)

/-- R73, R74, R81: the values of names and statuses, and which values are known names. -/
def Obligations.NameAndStatusCodes : Prop :=
  nameCode .unknown = 0x00 ∧ nameCode .power = 0x01 ∧ nameCode .up = 0x02 ∧ nameCode .down = 0x03 ∧
  nameCode .left = 0x04 ∧ nameCode .right = 0x05 ∧ nameCode .menu = 0x06 ∧
  statusCode .ok = 0x00 ∧ statusCode .invalidTarget = 0x01 ∧ statusCode .busy = 0x02 ∧
  statusCode .invalidTimeout = 0x03 ∧ statusCode .illegalCommand = 0x04 ∧
  (∀ v : U8, isKnownCode v = true ↔ 1 ≤ v.toNat ∧ v.toNat ≤ 6) ∧
  (∀ v : U8, isKnownCode v = true → nameCode (nameOfCode v) = v ∧ isKnown (nameOfCode v) = true) ∧
  (∀ n, isKnown n = true ↔ n ≠ .unknown)

/-! ## Time and windows -/

/-- R10: the elapsed time is the real one below 2^32 units, across the wrap. -/
def Obligations.ElapsedTimeIsExact : Prop :=
  (∀ a b : U32, (udiff32 a b).toNat = (a.toNat + (2 ^ 32 - b.toNat)) % 2 ^ 32) ∧
  (∀ now before : Nat, before ≤ now → now - before < 2 ^ 32 →
    (udiff32 (BitVec.ofNat 32 now) (BitVec.ofNat 32 before)).toNat = now - before)

/-- R11: a window holds the values strictly between its ends, unsigned. -/
def Obligations.WindowsAreOpen : Prop :=
  ∀ v lo hi : U32, inOpen v lo hi = true ↔ lo.toNat < v.toNat ∧ v.toNat < hi.toNat

/-- R165, R166: the expiry test is false from ARM up to the deadline, and true for 2^31 ms from the deadline on. -/
def Obligations.ExpiryIsExact : Prop :=
  ∀ armed timeout now : Nat, timeout < 2 ^ 31 → armed ≤ now →
    (now < armed + timeout →
      expired (BitVec.ofNat 32 now) (deadlineOf (BitVec.ofNat 32 armed) (BitVec.ofNat 32 timeout)) = false) ∧
    (armed + timeout ≤ now → now < armed + timeout + 2 ^ 31 →
      expired (BitVec.ofNat 32 now) (deadlineOf (BitVec.ofNat 32 armed) (BitVec.ofNat 32 timeout)) = true)

/-- R44, R204: under the premises P1 to P3 every wait of at most 2^31 units meets a sample at which it has ended. -/
def Obligations.ClockPremisesEndEveryWait : Prop :=
  ∀ real sample, ClockPremises real sample → ∀ (j : Nat) (limit : U32), limit.toNat ≤ 2 ^ 31 →
    ∃ k, j ≤ k ∧ timedOut (sample k) (sample j) limit = true

/-! ## Reset and faults (70_reset_and_hazards.md, 60_exceptions.md) -/

/-- R250: the reset state. -/
def Obligations.ResetStateValues : Prop :=
  State.reset.phase = .boundary ∧ State.reset.pulseN = 0 ∧ State.reset.codeValid = false ∧
  State.reset.learn = .idle ∧ (∀ n, outGet State.reset.out n = false) ∧ State.reset.faulted = none ∧
  State.reset.table = State.reset.cfg.seedTable ∧ State.reset.syncT0Ms = none ∧ State.reset.edgeT0Us = none ∧
  State.reset.edgeLevel = none ∧ State.reset.code = none ∧ State.reset.holdName = none ∧
  State.reset.holdT0Ms = none ∧ (∀ k, k < 100 → State.reset.buf[k]? = some none)

/-- R251 to R253: a step with `rst` asserted gives the reset state, whatever the state, with no event or response, and no
other step leaves the faulted state. -/
def Obligations.ResetStepGivesResetState : Prop :=
  (∀ s t : State, step s = .next t → s.faulted ≠ none → s.inp.rst = true) ∧
  ∀ s : State, s.inp.rst = true → s.cfg.wellFormed = true →
    ∃ t, step s = .next t ∧ t.cfg = s.cfg ∧ t.phase = .boundary ∧ t.pulseN = 0 ∧ t.codeValid = false ∧
      t.learn = .idle ∧ (∀ n, outGet t.out n = false) ∧ t.faulted = none ∧ t.table = s.cfg.seedTable ∧
      t.syncT0Ms = none ∧ t.edgeT0Us = none ∧ t.edgeLevel = none ∧ t.code = none ∧ t.holdName = none ∧
      t.holdT0Ms = none ∧ (∀ k, k < 100 → t.buf[k]? = some none) ∧ silent t

/-- R255: what a configuration must meet; that a reset step on one that does not is refused is the model's choice, log
entry 14. -/
def Obligations.BadConfigurationIsRefused : Prop :=
  (∀ p : Params, p.wellFormed = true ↔
    (p.seedTable.map Entry.key).Nodup ∧ (∀ e ∈ p.seedTable, isKnown e.name = true) ∧
    (∀ c, p.tableCapacity = some c → p.seedTable.length ≤ c)) ∧
  (∀ s : State, s.inp.rst = true → s.cfg.wellFormed = false → step s = .refused .badConfiguration)

/-- R145: after reset every seed Code looks up to its seed name. For State.reset the seed is the model's opaque one, log
entry 3. -/
def Obligations.SeedResolvesAfterReset : Prop :=
  (∀ p x q d, p.wellFormed = true → ∀ e ∈ p.seedTable,
    tableLookup e.key (State.resetWith p x q d).table = some e.name) ∧
  (∀ e ∈ State.reset.cfg.seedTable, tableLookup e.key State.reset.table = some e.name)

/-- R207: a faulted core has no step but a reset step; the outcome is a fault (log entry 10). -/
def Obligations.FaultedCoreTakesNoStep : Prop :=
  ∀ (s : State) (r : FaultReason), s.faulted = some r → s.inp.rst = false → step s = .fault (.coreFaulted r)

/-- R226: an operation that raises a fault has no other effect. -/
def Obligations.RaisingHasNoOtherEffect : Prop :=
  ∀ (i : Instr) (s t : State) (r : FaultReason), s.faulted = none → exec i s = .next t → t.faulted = some r →
    t = faultedFrom s r

/-- R36, R226: reads of elements that hold no value raise UnwrittenRead, and an append beyond the buffer stops the model
(the latter is the model's choice, log entry 11). No run from reset reaches any of these states. -/
def Obligations.ReadsWithoutValueRaise : Prop :=
  ∀ s : State,
    (s.syncT0Ms = none → exec .sync s = .next (faultedFrom s .unwrittenRead)) ∧
    (s.edgeT0Us = none → exec .edgeWait s = .next (faultedFrom s .unwrittenRead)) ∧
    (∀ t0, s.edgeT0Us = some t0 → timedOut s.inp.nowUs t0 s.cfg.pulseTimeoutUs = false → s.edgeLevel = none →
      exec .edgeWait s = .next (faultedFrom s .unwrittenRead)) ∧
    (∀ t0 l, s.edgeT0Us = some t0 → timedOut s.inp.nowUs t0 s.cfg.pulseTimeoutUs = false → s.edgeLevel = some l →
      s.inp.line ≠ l → 100 ≤ s.pulseN → exec .edgeWait s = .fault .bufferIndex) ∧
    (66 ≤ s.pulseN → readPulse s 0 = none → exec .decode s = .next (faultedFrom s .unwrittenRead)) ∧
    (s.learn = .idle → s.codeValid = true → s.code = none →
      exec .resolve s = .next (faultedFrom s .unwrittenRead)) ∧
    (∀ n d, s.learn = .listening n d → expired s.inp.nowMs d = false → s.codeValid = true → s.code = none →
      exec .resolve s = .next (faultedFrom s .unwrittenRead)) ∧
    (s.holdT0Ms = none → exec .hold s = .next (faultedFrom s .unwrittenRead)) ∧
    (∀ t0, s.holdT0Ms = some t0 → timedOut s.inp.nowMs t0 400 = true → s.holdName = none →
      exec .hold s = .next (faultedFrom s .unwrittenRead))

/-! ## The step (10_state.md R47) -/

/-- R21, R47, R202: a step of a running core runs the operation selected, and then takes the environment's next sample
(log entries 1 and 5: the samples in State and the fetch of a command are the model's choice). -/
def Obligations.StepRunsSelectedOperation : Prop :=
  (∀ s : State, s.inp.rst = false → s.faulted = none →
    step s = advanceOutcome (exec (fetch s) s) ∧
    (∀ i, decode (fetchWord s) = .instr i → fetch s = i) ∧
    (∀ w, s.phase = .boundary → s.inp.cmd = some w → fetchWord s = .command w) ∧
    (s.phase ≠ .boundary ∨ s.inp.cmd = none → fetchWord s = .phase (phaseValue s.phase)) ∧
    (∀ w e, s.phase = .boundary → s.inp.cmd = some w → decodeCommand w = .rejected e → fetch s = .boundary)) ∧
  (∀ (t : State) (x : Sample) (q : List Sample), t.queue = x :: q → t.advance = { t with inp := x, queue := q }) ∧
  (∀ t : State, t.queue = [] → t.advance = { t with inp := Config.freeSample t.draws, draws := t.draws + 1 })

/-- The word placed where the next step takes its operation from is the one that step runs (log entry 9). -/
def Obligations.PlacedWordRuns : Prop :=
  ∀ (s : State) (e : Encoded) (i : Instr), decode e = .instr i →
    step (place e s) = advanceOutcome (exec i (place e s))

/-! ## BOUNDARY and the commands (45_cycle.md, 43_learning.md, 42_codetable.md) -/

/-- R201, R83: BOUNDARY takes the command if one is presented, discards the previous capture and starts the idle wait.
That a legal command's own meaning is this whole step is the model's choice, log entry 5. -/
def Obligations.BoundaryStartsCycle : Prop :=
  ∀ s : State, ∃ t, exec .boundary s = .next t ∧
    t.pulseN = 0 ∧ t.codeValid = false ∧ t.code = none ∧ t.syncT0Ms = some s.inp.nowMs ∧ t.phase = .sync ∧
    t.buf = s.buf ∧ t.table = s.table ∧ sameMachine s t ∧ sameEdge s t ∧ sameOutputs s t ∧ t.faulted = s.faulted ∧
    (s.inp.cmd = none → silent t ∧ t.learn = s.learn) ∧
    (∀ w e, s.inp.cmd = some w → decodeCommand w = .rejected e →
      t.resp = some ⟨.illegalCommand, .empty⟩ ∧ t.events = [] ∧ t.learn = s.learn) ∧
    (∀ w i, s.inp.cmd = some w → decodeCommand w = .instr i → exec i s = .next t)

/-- R64, R201: ARM and SNAPSHOT too run the whole BOUNDARY step (the model's choice, log entry 5); no entry or code of the
previous cycle can be read after it (the entries stay stored but unreadable, log entry 6), and all else but the learning
state and the ports is as before. -/
def Obligations.CommandsRunTheBoundaryStep : Prop :=
  ∀ (s : State) (i : Instr), (i = .boundary ∨ i = .snapshot ∨ ∃ n timeout, i = .arm n timeout) →
    ∃ t, exec i s = .next t ∧ t.pulseN = 0 ∧ (∀ k, readPulse t k = none) ∧ readCode t = none ∧
      t.syncT0Ms = some s.inp.nowMs ∧ t.phase = .sync ∧ t.buf = s.buf ∧ t.table = s.table ∧
      sameMachine s t ∧ sameEdge s t ∧ sameOutputs s t ∧ t.faulted = s.faulted

/-- R161, R165: ARM from Idle with a known target and a timeout below 2^31. -/
def Obligations.ArmStartsSession : Prop :=
  ∀ (s : State) (n : U8) (timeout : U32), isKnownCode n = true → timeout.toNat < 2 ^ 31 → s.learn = .idle →
    ∃ t, exec (.arm n timeout) s = .next t ∧
      t.learn = .listening (nameOfCode n) (s.inp.nowMs + timeout) ∧
      t.events = [.learnArmed (nameOfCode n)] ∧ t.resp = some ⟨.ok, .empty⟩ ∧ t.table = s.table

/-- R82, R162, R163, R164: the error statuses of ARM in their precedence; nothing changes but what BOUNDARY always writes. -/
def Obligations.ArmErrorStatuses : Prop :=
  ∀ (s : State) (n : U8) (timeout : U32), ∃ t, exec (.arm n timeout) s = .next t ∧ t.table = s.table ∧ t.buf = s.buf ∧
    sameMachine s t ∧ sameEdge s t ∧ sameOutputs s t ∧ t.faulted = s.faulted ∧
    (isKnownCode n = false →
      t.resp = some ⟨.invalidTarget, .empty⟩ ∧ t.learn = s.learn ∧ t.events = []) ∧
    (isKnownCode n = true → 2 ^ 31 ≤ timeout.toNat →
      t.resp = some ⟨.invalidTimeout, .empty⟩ ∧ t.learn = s.learn ∧ t.events = []) ∧
    (isKnownCode n = true → timeout.toNat < 2 ^ 31 → s.learn ≠ .idle →
      t.resp = some ⟨.busy, .empty⟩ ∧ t.learn = s.learn ∧ t.events = [])

/-- R224, R229: a command that gets an error status leaves the step as if no command had come, but for the response. -/
def Obligations.FailedCommandHasNoEffect : Prop :=
  ∀ (s t u : State) (st : Status), exec .boundary s = .next t →
    exec .boundary { s with inp := { s.inp with cmd := none } } = .next u →
    st ≠ .ok → t.resp = some ⟨st, .empty⟩ → t = { u with inp := s.inp, resp := some ⟨st, .empty⟩ }

/-- R80, R89, R143: SNAPSHOT answers the whole table in order and changes neither the table nor the learning state. That
its meaning is the whole BOUNDARY step, and that the u32 count wraps, are the model's choices, log entries 5 and 15. -/
def Obligations.SnapshotReturnsTable : Prop :=
  ∀ s : State, ∃ t, exec .snapshot s = .next t ∧
    t.resp = some ⟨.ok, .snapshot (BitVec.ofNat 32 s.table.length)
      (s.table.map fun e => codeWord e.key ++ nameCode e.name)⟩ ∧
    t.events = [] ∧ sameLearning s t

/-! ## Capture (40_capture.md) -/

/-- R101 to R103: SYNC tests the idle timeout first, then the line, and writes nothing but `phase`. -/
def Obligations.SyncWaitsForStart : Prop :=
  encode .sync = .phase 1 ∧ ∀ (s : State) (t0 : U32), s.syncT0Ms = some t0 →
    ∃ t, exec .sync s = .next t ∧
      t.phase = (if s.cfg.idleTimeoutMs.toNat ≤ (s.inp.nowMs - t0).toNat then .decode
        else if s.inp.line = false then .edgeRec else .sync) ∧
      silent t ∧ t.syncT0Ms = s.syncT0Ms ∧ sameMachine s t ∧ sameEdge s t ∧ samePulses s t ∧ sameCode s t ∧
      sameLearning s t ∧ sameOutputs s t ∧ t.faulted = s.faulted

/-- R104: EDGE_REC records the level and the time, and goes to EDGE_WAIT. -/
def Obligations.EdgeRecRecords : Prop :=
  encode .edgeRec = .phase 2 ∧ ∀ s : State, ∃ t, exec .edgeRec s = .next t ∧
    t.edgeLevel = some s.inp.line ∧ t.edgeT0Us = some s.inp.nowUs ∧ t.phase = .edgeWait ∧ silent t ∧ t.syncT0Ms = s.syncT0Ms ∧ sameMachine s t ∧ samePulses s t ∧ sameCode s t ∧
    sameLearning s t ∧ sameOutputs s t ∧ t.faulted = s.faulted

/-- R105, R106, R107: EDGE_WAIT tests the pulse timeout first, appends the elapsed time on a change, ends at 100 entries,
and leaves every other entry of the buffer alone. -/
def Obligations.EdgeWaitAppends : Prop :=
  ∀ (s : State) (t0 : U32) (level : Bool), s.edgeT0Us = some t0 → s.edgeLevel = some level → s.pulseN < 100 →
    ∃ t, exec .edgeWait s = .next t ∧
      (s.cfg.pulseTimeoutUs.toNat ≤ (s.inp.nowUs - t0).toNat → t.phase = .decode ∧ samePulses s t) ∧
      ((s.inp.nowUs - t0).toNat < s.cfg.pulseTimeoutUs.toNat → s.inp.line ≠ level →
        t.phase = (if s.pulseN + 1 = 100 then .decode else .edgeRec) ∧ t.pulseN = s.pulseN + 1 ∧
        t.buf[s.pulseN]? = some (some (s.inp.nowUs - t0)) ∧
        ∀ k, k ≠ s.pulseN → t.buf[k]? = s.buf[k]?) ∧
      ((s.inp.nowUs - t0).toNat < s.cfg.pulseTimeoutUs.toNat → s.inp.line = level →
        t.phase = .edgeWait ∧ samePulses s t) ∧
      silent t ∧ t.syncT0Ms = s.syncT0Ms ∧ sameMachine s t ∧ sameEdge s t ∧ sameCode s t ∧ sameLearning s t ∧
      sameOutputs s t ∧ t.faulted = s.faulted

/-- R105, R107, R111: fed the edges of any waveform of 1 to 100 pulses below the timeout, the capture holds exactly its
durations, in order. That the samples stand in State, in `inp` and `queue`, is the model's choice, log entry 1. -/
def Obligations.CaptureRecordsWaveform : Prop :=
  ∀ (s : State) (ms us : U32) (level : Bool) (ds : List U32) (rest : List Sample),
    s.phase = .edgeRec → s.faulted = none → s.pulseN = 0 → ds ≠ [] → ds.length ≤ 100 →
    (∀ d ∈ ds, d < s.cfg.pulseTimeoutUs) → s.inp :: s.queue = edgeSamples ms level us ds ++ rest →
    ∃ t, core.run (2 * ds.length) s = .next t ∧ t.pulseN = ds.length ∧
      (∀ k, k < ds.length → t.buf[k]? = some ds[k]?) ∧
      t.phase = (if ds.length = 100 then .decode else .edgeRec)

/-! ## Decoding (41_decode.md) -/

/-- R120 to R126: DECODE gives a Code exactly when every check passes, and the Code's bits are the classes of the spaces,
first bit most significant. -/
def Obligations.DecodeJudgesSequence : Prop :=
  encode .decode = .phase 4 ∧ ∀ s : State, (66 ≤ s.pulseN → examinedHeld s) →
    ∃ t, exec .decode s = .next t ∧ t.phase = .resolve ∧ t.codeValid = t.code.isSome ∧
      (t.codeValid = true ↔
        66 ≤ s.pulseN ∧ (8500 < (storedPulse s 0).toNat ∧ (storedPulse s 0).toNat < 9500) ∧
        (4000 < (storedPulse s 1).toNat ∧ (storedPulse s 1).toNat < 5000) ∧
        ∀ i, i < 32 →
          (400 < (storedPulse s (3 + 2 * i)).toNat ∧ (storedPulse s (3 + 2 * i)).toNat < 700) ∨
          (1500 < (storedPulse s (3 + 2 * i)).toNat ∧ (storedPulse s (3 + 2 * i)).toNat < 1800)) ∧
      (∀ c, t.code = some c → ∀ i, i < 32 →
        (codeWord c).getLsbD (31 - i) = decide (1500 < (storedPulse s (3 + 2 * i)).toNat)) ∧
      silent t ∧ t.syncT0Ms = s.syncT0Ms ∧ sameMachine s t ∧ sameEdge s t ∧ samePulses s t ∧ sameLearning s t ∧
      sameOutputs s t ∧ t.faulted = s.faulted

/-- R127, R128, R129: two sequences of at least 66 entries that agree on the entries examined decode alike. -/
def Obligations.DecodeIgnoresOtherEntries : Prop :=
  ∀ s u : State, 66 ≤ s.pulseN → 66 ≤ u.pulseN → examinedHeld s → examinedHeld u →
    (∀ k, examined k → storedPulse s k = storedPulse u k) →
    ∃ t v, exec .decode s = .next t ∧ exec .decode u = .next v ∧ t.codeValid = v.codeValid ∧ t.code = v.code

/-- R105, R106, R111, R120, R126: the frame of any code word on the line, followed by a pulse timeout, becomes that Code,
with `code_valid` set. That the samples stand in State, in `inp` and `queue`, is the model's choice, log entry 1. -/
def Obligations.FrameOnLineBecomesItsCode : Prop :=
  ∀ (s : State) (w ms us : U32) (x y z : Sample) (rest : List Sample),
    s.phase = .edgeRec → s.faulted = none → s.pulseN = 0 → (9000 : U32) < s.cfg.pulseTimeoutUs →
    s.inp :: s.queue = edgeSamples ms false us (frameDurations w) ++ x :: y :: z :: rest →
    x.rst = false → y.rst = false → z.rst = false → timedOut y.nowUs x.nowUs s.cfg.pulseTimeoutUs = true →
    ∃ t, core.run 137 s = .next t ∧ t.phase = .resolve ∧ t.codeValid = true ∧ t.code = some (codeOfWord w)

/-! ## The code table (42_codetable.md) -/

/-- R140: a lookup finds an entry whose key is the Code in all four bytes, and misses only when there is none. -/
def Obligations.LookupIsExact : Prop :=
  ∀ (c : Code) (t : List Entry),
    (tableLookup c t = none ↔ ∀ e ∈ t, e.key ≠ c) ∧
    (∀ n, tableLookup c t = some n → ∃ e ∈ t, e.key = c ∧ e.name = n) ∧
    (keysDistinct t = true → ∀ e ∈ t, tableLookup e.key t = some e.name)

/-- R141, R142: a bind overwrites in place or appends, makes the Code map to the name, leaves every other Code's name
alone, and fails only on a new key in a full table. -/
def Obligations.BindOverwritesOrAppends : Prop :=
  ∀ (cap : Option Nat) (c : Code) (n : ActionName) (t : List Entry),
    (tableBind cap c n t = none ↔ tableLookup c t = none ∧ cap = some t.length) ∧
    (∀ u, tableBind cap c n t = some u →
      tableLookup c u = some n ∧ (∀ c', c' ≠ c → tableLookup c' u = tableLookup c' t) ∧
      (tableLookup c t ≠ none → u.map Entry.key = t.map Entry.key) ∧
      (tableLookup c t = none → u = t ++ [⟨c, n⟩]))

/-! ## Learning (43_learning.md) -/

/-- R167, R169, R170: the learning branch of RESOLVE. -/
def Obligations.LearningResolves : Prop :=
  ∀ (s : State) (target : ActionName) (deadline : U32), s.learn = .listening target deadline →
    (expired s.inp.nowMs deadline = true →
      ∃ t, exec .resolve s = .next t ∧ t.learn = .idle ∧ t.table = s.table ∧ t.phase = .boundary ∧
        t.events = undecodableEvents s ++ [.learnTimeout target] ∧ t.resp = none) ∧
    (∀ c table, expired s.inp.nowMs deadline = false → s.codeValid = true → s.code = some c →
      tableBind s.cfg.tableCapacity c target s.table = some table →
      ∃ t, exec .resolve s = .next t ∧ t.learn = .idle ∧ t.table = table ∧ t.phase = .boundary ∧
        t.events = [.learnBound target c] ∧ t.resp = none) ∧
    (expired s.inp.nowMs deadline = false → s.codeValid = false →
      ∃ t, exec .resolve s = .next t ∧ t.learn = s.learn ∧ t.table = s.table ∧ t.phase = .boundary ∧
        t.events = undecodableEvents s ∧ t.resp = none)

/-- R168: while Listening nothing is dispatched. -/
def Obligations.LearningTakesPriority : Prop :=
  ∀ (s t : State) (target : ActionName) (deadline : U32), s.learn = .listening target deadline →
    exec .resolve s = .next t →
    sameOutputs s t ∧ ∀ n c, Event.decodedKnown n c ∉ t.events ∧ Event.decodedUnknown c ∉ t.events

/-- R54, R141, R226: learning a new key into a full table raises TableFull. -/
def Obligations.FullTableFaults : Prop :=
  ∀ (s : State) (target : ActionName) (deadline : U32) (c : Code), s.learn = .listening target deadline →
    expired s.inp.nowMs deadline = false → s.codeValid = true → s.code = some c →
    tableLookup c s.table = none → s.cfg.tableCapacity = some s.table.length →
    exec .resolve s = .next (faultedFrom s .tableFull)

/-! ## Dispatch (44_dispatch.md) -/

/-- R181: a recognised name is reported, its line asserted and HOLD entered. -/
def Obligations.KnownCodeIsDispatched : Prop :=
  ∀ (s : State) (c : Code) (n : ActionName), s.learn = .idle → s.codeValid = true → s.code = some c →
    tableLookup c s.table = some n → isKnown n = true →
    ∃ t, exec .resolve s = .next t ∧ t.events = [.decodedKnown n c] ∧ t.resp = none ∧
      outGet t.out n = true ∧ (∀ m, m ≠ n → outGet t.out m = outGet s.out m) ∧ t.holdName = some n ∧
      t.holdT0Ms = some s.inp.nowMs ∧ t.phase = .hold ∧ sameLearning s t

/-- R180, R182: an unknown code is reported and drives no line; without a code RESOLVE only ends the cycle. -/
def Obligations.UnknownCodeIsReported : Prop :=
  (∀ (s : State) (c : Code), s.learn = .idle → s.codeValid = true → s.code = some c →
    (∀ n, tableLookup c s.table = some n → isKnown n = false) →
    ∃ t, exec .resolve s = .next t ∧ t.events = [.decodedUnknown c] ∧ t.resp = none ∧ sameOutputs s t ∧
      sameLearning s t ∧ t.phase = .boundary) ∧
  (∀ s : State, s.learn = .idle → s.codeValid = false →
    ∃ t, exec .resolve s = .next t ∧ t.events = (if 1 ≤ s.pulseN then [.undecodable] else []) ∧ t.resp = none ∧
      sameOutputs s t ∧ sameLearning s t ∧ t.phase = .boundary)

/-- R186: RESOLVE reports UNDECODABLE exactly for a non-empty capture without a code. -/
def Obligations.UndecodableExactly : Prop :=
  ∀ s t : State, s.faulted = none → exec .resolve s = .next t → t.faulted = none →
    (Event.undecodable ∈ t.events ↔ 1 ≤ s.pulseN ∧ s.codeValid = false)

/-- R180, R20: what RESOLVE leaves alone, in every case. -/
def Obligations.ResolveFrame : Prop :=
  ∀ s t : State, exec .resolve s = .next t →
    sameMachine s t ∧ t.syncT0Ms = s.syncT0Ms ∧ sameEdge s t ∧ samePulses s t ∧ sameCode s t

/-- R183: HOLD keeps the line until 400 ms have passed, then deasserts it and ends the cycle. -/
def Obligations.HoldDeassertsAfterAssertTime : Prop :=
  encode .hold = .phase 6 ∧ ∀ (s : State) (n : ActionName) (t0 : U32),
    s.holdName = some n → s.holdT0Ms = some t0 → ∃ t, exec .hold s = .next t ∧
      (400 ≤ (s.inp.nowMs - t0).toNat → outGet t.out n = false ∧ t.phase = .boundary) ∧
      ((s.inp.nowMs - t0).toNat < 400 → t.out = s.out ∧ t.phase = .hold) ∧
      (∀ m, m ≠ n → outGet t.out m = outGet s.out m) ∧
      t.holdName = s.holdName ∧ t.holdT0Ms = s.holdT0Ms ∧ silent t ∧ t.syncT0Ms = s.syncT0Ms ∧ sameMachine s t ∧
      sameEdge s t ∧ samePulses s t ∧ sameCode s t ∧ sameLearning s t ∧ t.faulted = s.faulted

/-- R183, R185, R203: whatever the samples, the line stays asserted over every step of the hold, and the first sample at
which 400 ms have passed ends it. That the samples stand in State, in `inp` and `queue`, is the model's choice, log entry
1. -/
def Obligations.HoldRunsToItsEnd : Prop :=
  ∀ (s : State) (n : ActionName) (t0 : U32) (before : List Sample) (last : Sample) (rest : List Sample),
    s.phase = .hold → s.faulted = none → s.holdName = some n → s.holdT0Ms = some t0 →
    s.inp :: s.queue = before ++ last :: rest →
    (∀ x ∈ before, x.rst = false ∧ (x.nowMs - t0).toNat < 400) → last.rst = false →
    400 ≤ (last.nowMs - t0).toNat →
    (∀ k, k ≤ before.length → ∃ t, core.run k s = .next t ∧ t.phase = .hold ∧ t.out = s.out) ∧
    ∃ t, core.run (before.length + 1) s = .next t ∧ t.phase = .boundary ∧ outGet t.out n = false

/-! ## The whole machine (45_cycle.md) -/

/-- R206: the transition table of `phase` and the three invariants that follow from it. -/
def Obligations.PhaseFollowsTransitionTable : Prop :=
  (∀ s t : State, s.inp.rst = false → step s = .next t → t.faulted = none →
    (s.phase = .boundary → t.phase = .sync) ∧
    (s.phase = .sync → ∃ t0, s.syncT0Ms = some t0 ∧
      t.phase = (if s.cfg.idleTimeoutMs ≤ udiff32 s.inp.nowMs t0 then .decode
        else if s.inp.line = false then .edgeRec else .sync)) ∧
    (s.phase = .edgeRec → t.phase = .edgeWait) ∧
    (s.phase = .edgeWait → ∃ t0, s.edgeT0Us = some t0 ∧
      t.phase = (if s.cfg.pulseTimeoutUs ≤ udiff32 s.inp.nowUs t0 then .decode
        else if s.edgeLevel = some s.inp.line then .edgeWait
        else if s.pulseN = 99 then .decode else .edgeRec)) ∧
    (s.phase = .decode → t.phase = .resolve) ∧
    (s.phase = .resolve → (t.phase = .hold ∨ t.phase = .boundary) ∧
      (t.phase = .hold ↔ s.learn = .idle ∧ s.codeValid = true ∧
        ∃ c n, s.code = some c ∧ tableLookup c s.table = some n ∧ isKnown n = true)) ∧
    (s.phase = .hold → ∃ t0, s.holdT0Ms = some t0 ∧
      t.phase = (if 400 ≤ udiff32 s.inp.nowMs t0 then .boundary else .hold))) ∧
  (∀ s : State, Inv s →
    (s.phase = .edgeRec ∨ s.phase = .edgeWait → s.pulseN ≤ 99) ∧
    (s.phase = .hold → ∃ n, s.holdName = some n ∧ ∀ m, outGet s.out m = true ↔ m = n) ∧
    (s.phase ≠ .hold → ∀ m, outGet s.out m = false))

/-- R204: only SYNC, EDGE_WAIT and HOLD can repeat, and not once their clock has reached its limit. -/
def Obligations.OnlyWaitsRepeat : Prop :=
  ∀ s t : State, s.inp.rst = false → step s = .next t → t.faulted = none → t.phase = s.phase →
    (s.phase = .sync ∧ ∃ t0, s.syncT0Ms = some t0 ∧ udiff32 s.inp.nowMs t0 < s.cfg.idleTimeoutMs) ∨
    (s.phase = .edgeWait ∧ ∃ t0, s.edgeT0Us = some t0 ∧ udiff32 s.inp.nowUs t0 < s.cfg.pulseTimeoutUs) ∨
    (s.phase = .hold ∧ ∃ t0, s.holdT0Ms = some t0 ∧ udiff32 s.inp.nowMs t0 < 400)

/-- R160: the only steps that write the learning state. -/
def Obligations.LearnChangesOnlyByArmOrResolve : Prop :=
  ∀ s t : State, s.inp.rst = false → step s = .next t → t.learn ≠ s.learn →
    (s.phase = .boundary ∧ s.learn = .idle ∧ ∃ w n timeout, s.inp.cmd = some w ∧
      decodeCommand w = .instr (.arm n timeout) ∧ isKnownCode n = true ∧ timeout.toNat < 2 ^ 31 ∧
      t.learn = .listening (nameOfCode n) (s.inp.nowMs + timeout)) ∨
    (s.phase = .resolve ∧ t.learn = .idle ∧ ∃ target deadline, s.learn = .listening target deadline ∧
      (expired s.inp.nowMs deadline = true ∨ s.codeValid = true))

/-- R61, R146: the keys of the table only grow between resets, and only a bind in RESOLVE writes it. -/
def Obligations.TableOnlyGrows : Prop :=
  ∀ s t : State, s.inp.rst = false → step s = .next t →
    s.table.map Entry.key <+: t.table.map Entry.key ∧
    (t.table ≠ s.table → s.phase = .resolve ∧ ∃ target deadline c, s.learn = .listening target deadline ∧
      s.code = some c ∧ tableBind s.cfg.tableCapacity c target s.table = some t.table)

/-- R45, R202: outside BOUNDARY no step depends on the command presented. -/
def Obligations.CommandReadOnlyAtBoundary : Prop :=
  ∀ (s : State) (cmd : Option (BitVec 64)), s.phase ≠ .boundary →
    step { s with inp := { s.inp with cmd := cmd } } = step s

/-- R40, R42: which steps read the line and which read each clock. -/
def Obligations.LineAndClocksReadByTheirPhases : Prop :=
  (∀ (s : State) (line : Bool), s.phase ≠ .sync → s.phase ≠ .edgeRec → s.phase ≠ .edgeWait →
    step { s with inp := { s.inp with line := line } } = step s) ∧
  (∀ (s : State) (us : U32), s.phase ≠ .edgeRec → s.phase ≠ .edgeWait →
    step { s with inp := { s.inp with nowUs := us } } = step s) ∧
  (∀ (s : State) (ms : U32), s.phase ≠ .boundary → s.phase ≠ .sync → s.phase ≠ .resolve → s.phase ≠ .hold →
    step { s with inp := { s.inp with nowMs := ms } } = step s)

/-- R88: a step emits at most two events, two only in RESOLVE with UNDECODABLE first. -/
def Obligations.AtMostTwoEventsPerStep : Prop :=
  ∀ s t : State, step s = .next t →
    t.events.length ≤ 2 ∧ (2 ≤ t.events.length → s.phase = .resolve ∧ t.events.head? = some .undecodable)

/-- R80: a response is given exactly by the BOUNDARY step that takes a command. -/
def Obligations.ResponseExactlyForCommands : Prop :=
  ∀ s t : State, s.inp.rst = false → step s = .next t →
    (t.resp ≠ none ↔ s.phase = .boundary ∧ s.inp.cmd ≠ none)

/-- R25, R36, R53, R109, R184, R206: every step keeps the invariant. -/
def Obligations.StepKeepsInvariant : Prop :=
  ∀ s t : State, Inv s → step s = .next t → Inv t

/-- R250, R255: the reset state of every well-formed configuration meets the invariant, and so does State.reset: that it
does for every opaque seed, because an empty seed stands in place of one that breaks R255, is the model's choice, log
entry 3. -/
def Obligations.ResetMeetsInvariant : Prop :=
  Inv State.reset ∧ ∀ p x q d, p.wellFormed = true → Inv (State.resetWith p x q d)

/-- R36, R208: from a state that meets the invariant a running core always has a step, which never raises UnwrittenRead,
and raises nothing at all with an unbounded table. -/
def Obligations.RunningCoreAlwaysSteps : Prop :=
  ∀ s : State, Inv s → s.faulted = none →
    ∃ t, step s = .next t ∧ t.faulted ≠ some .unwrittenRead ∧ (s.cfg.tableCapacity = none → t.faulted = none)

/-- R184: at most one line is asserted, and only RESOLVE asserts one, on entering HOLD. -/
def Obligations.AtMostOneLineAsserted : Prop :=
  (∀ (s : State) (n m : ActionName), Inv s → outGet s.out n = true → outGet s.out m = true → n = m) ∧
  (∀ (s t : State) (n : ActionName), step s = .next t → outGet s.out n = false → outGet t.out n = true →
    s.phase = .resolve ∧ t.phase = .hold ∧ t.holdName = some n)
end

