-- ==== Sys2Proof/Laws/State.lean ====
section
/-! SUPPORT. Each field after each named update of the state: one lemma per field per update, so that no proof unfolds a
record update. -/

namespace Sys2Proof.Machine

section drive
variable (s : State) (r : Option Response) (es : List Event)
@[simp] theorem State.drive_cfg : (s.drive r es).cfg = s.cfg := rfl
@[simp] theorem State.drive_inp : (s.drive r es).inp = s.inp := rfl
@[simp] theorem State.drive_queue : (s.drive r es).queue = s.queue := rfl
@[simp] theorem State.drive_draws : (s.drive r es).draws = s.draws := rfl
@[simp] theorem State.drive_phase : (s.drive r es).phase = s.phase := rfl
@[simp] theorem State.drive_syncT0Ms : (s.drive r es).syncT0Ms = s.syncT0Ms := rfl
@[simp] theorem State.drive_edgeT0Us : (s.drive r es).edgeT0Us = s.edgeT0Us := rfl
@[simp] theorem State.drive_edgeLevel : (s.drive r es).edgeLevel = s.edgeLevel := rfl
@[simp] theorem State.drive_pulseN : (s.drive r es).pulseN = s.pulseN := rfl
@[simp] theorem State.drive_buf : (s.drive r es).buf = s.buf := rfl
@[simp] theorem State.drive_codeValid : (s.drive r es).codeValid = s.codeValid := rfl
@[simp] theorem State.drive_code : (s.drive r es).code = s.code := rfl
@[simp] theorem State.drive_table : (s.drive r es).table = s.table := rfl
@[simp] theorem State.drive_learn : (s.drive r es).learn = s.learn := rfl
@[simp] theorem State.drive_out : (s.drive r es).out = s.out := rfl
@[simp] theorem State.drive_holdName : (s.drive r es).holdName = s.holdName := rfl
@[simp] theorem State.drive_holdT0Ms : (s.drive r es).holdT0Ms = s.holdT0Ms := rfl
@[simp] theorem State.drive_faulted : (s.drive r es).faulted = s.faulted := rfl
@[simp] theorem State.drive_resp : (s.drive r es).resp = r := rfl
@[simp] theorem State.drive_events : (s.drive r es).events = es := rfl
end drive

section goto
variable (s : State) (p : Phase)
@[simp] theorem State.goto_cfg : (s.goto p).cfg = s.cfg := rfl
@[simp] theorem State.goto_inp : (s.goto p).inp = s.inp := rfl
@[simp] theorem State.goto_queue : (s.goto p).queue = s.queue := rfl
@[simp] theorem State.goto_draws : (s.goto p).draws = s.draws := rfl
@[simp] theorem State.goto_phase : (s.goto p).phase = p := rfl
@[simp] theorem State.goto_syncT0Ms : (s.goto p).syncT0Ms = s.syncT0Ms := rfl
@[simp] theorem State.goto_edgeT0Us : (s.goto p).edgeT0Us = s.edgeT0Us := rfl
@[simp] theorem State.goto_edgeLevel : (s.goto p).edgeLevel = s.edgeLevel := rfl
@[simp] theorem State.goto_pulseN : (s.goto p).pulseN = s.pulseN := rfl
@[simp] theorem State.goto_buf : (s.goto p).buf = s.buf := rfl
@[simp] theorem State.goto_codeValid : (s.goto p).codeValid = s.codeValid := rfl
@[simp] theorem State.goto_code : (s.goto p).code = s.code := rfl
@[simp] theorem State.goto_table : (s.goto p).table = s.table := rfl
@[simp] theorem State.goto_learn : (s.goto p).learn = s.learn := rfl
@[simp] theorem State.goto_out : (s.goto p).out = s.out := rfl
@[simp] theorem State.goto_holdName : (s.goto p).holdName = s.holdName := rfl
@[simp] theorem State.goto_holdT0Ms : (s.goto p).holdT0Ms = s.holdT0Ms := rfl
@[simp] theorem State.goto_faulted : (s.goto p).faulted = s.faulted := rfl
@[simp] theorem State.goto_resp : (s.goto p).resp = s.resp := rfl
@[simp] theorem State.goto_events : (s.goto p).events = s.events := rfl
end goto

section setFault
variable (s : State) (r : FaultReason)
@[simp] theorem State.setFault_cfg : (s.setFault r).cfg = s.cfg := rfl
@[simp] theorem State.setFault_inp : (s.setFault r).inp = s.inp := rfl
@[simp] theorem State.setFault_queue : (s.setFault r).queue = s.queue := rfl
@[simp] theorem State.setFault_draws : (s.setFault r).draws = s.draws := rfl
@[simp] theorem State.setFault_phase : (s.setFault r).phase = s.phase := rfl
@[simp] theorem State.setFault_syncT0Ms : (s.setFault r).syncT0Ms = s.syncT0Ms := rfl
@[simp] theorem State.setFault_edgeT0Us : (s.setFault r).edgeT0Us = s.edgeT0Us := rfl
@[simp] theorem State.setFault_edgeLevel : (s.setFault r).edgeLevel = s.edgeLevel := rfl
@[simp] theorem State.setFault_pulseN : (s.setFault r).pulseN = s.pulseN := rfl
@[simp] theorem State.setFault_buf : (s.setFault r).buf = s.buf := rfl
@[simp] theorem State.setFault_codeValid : (s.setFault r).codeValid = s.codeValid := rfl
@[simp] theorem State.setFault_code : (s.setFault r).code = s.code := rfl
@[simp] theorem State.setFault_table : (s.setFault r).table = s.table := rfl
@[simp] theorem State.setFault_learn : (s.setFault r).learn = s.learn := rfl
@[simp] theorem State.setFault_out : (s.setFault r).out = s.out := rfl
@[simp] theorem State.setFault_holdName : (s.setFault r).holdName = s.holdName := rfl
@[simp] theorem State.setFault_holdT0Ms : (s.setFault r).holdT0Ms = s.holdT0Ms := rfl
@[simp] theorem State.setFault_faulted : (s.setFault r).faulted = some r := rfl
@[simp] theorem State.setFault_resp : (s.setFault r).resp = s.resp := rfl
@[simp] theorem State.setFault_events : (s.setFault r).events = s.events := rfl
end setFault

section setVerdict
variable (s : State) (c : Option Code)
@[simp] theorem State.setVerdict_cfg : (s.setVerdict c).cfg = s.cfg := rfl
@[simp] theorem State.setVerdict_inp : (s.setVerdict c).inp = s.inp := rfl
@[simp] theorem State.setVerdict_queue : (s.setVerdict c).queue = s.queue := rfl
@[simp] theorem State.setVerdict_draws : (s.setVerdict c).draws = s.draws := rfl
@[simp] theorem State.setVerdict_phase : (s.setVerdict c).phase = s.phase := rfl
@[simp] theorem State.setVerdict_syncT0Ms : (s.setVerdict c).syncT0Ms = s.syncT0Ms := rfl
@[simp] theorem State.setVerdict_edgeT0Us : (s.setVerdict c).edgeT0Us = s.edgeT0Us := rfl
@[simp] theorem State.setVerdict_edgeLevel : (s.setVerdict c).edgeLevel = s.edgeLevel := rfl
@[simp] theorem State.setVerdict_pulseN : (s.setVerdict c).pulseN = s.pulseN := rfl
@[simp] theorem State.setVerdict_buf : (s.setVerdict c).buf = s.buf := rfl
@[simp] theorem State.setVerdict_codeValid : (s.setVerdict c).codeValid = c.isSome := rfl
@[simp] theorem State.setVerdict_code : (s.setVerdict c).code = c := rfl
@[simp] theorem State.setVerdict_table : (s.setVerdict c).table = s.table := rfl
@[simp] theorem State.setVerdict_learn : (s.setVerdict c).learn = s.learn := rfl
@[simp] theorem State.setVerdict_out : (s.setVerdict c).out = s.out := rfl
@[simp] theorem State.setVerdict_holdName : (s.setVerdict c).holdName = s.holdName := rfl
@[simp] theorem State.setVerdict_holdT0Ms : (s.setVerdict c).holdT0Ms = s.holdT0Ms := rfl
@[simp] theorem State.setVerdict_faulted : (s.setVerdict c).faulted = s.faulted := rfl
@[simp] theorem State.setVerdict_resp : (s.setVerdict c).resp = s.resp := rfl
@[simp] theorem State.setVerdict_events : (s.setVerdict c).events = s.events := rfl
end setVerdict

section appendPulse
variable (s : State) (d : U32)
@[simp] theorem State.appendPulse_cfg : (s.appendPulse d).cfg = s.cfg := rfl
@[simp] theorem State.appendPulse_inp : (s.appendPulse d).inp = s.inp := rfl
@[simp] theorem State.appendPulse_queue : (s.appendPulse d).queue = s.queue := rfl
@[simp] theorem State.appendPulse_draws : (s.appendPulse d).draws = s.draws := rfl
@[simp] theorem State.appendPulse_phase : (s.appendPulse d).phase = s.phase := rfl
@[simp] theorem State.appendPulse_syncT0Ms : (s.appendPulse d).syncT0Ms = s.syncT0Ms := rfl
@[simp] theorem State.appendPulse_edgeT0Us : (s.appendPulse d).edgeT0Us = s.edgeT0Us := rfl
@[simp] theorem State.appendPulse_edgeLevel : (s.appendPulse d).edgeLevel = s.edgeLevel := rfl
@[simp] theorem State.appendPulse_pulseN : (s.appendPulse d).pulseN = s.pulseN + 1 := rfl
@[simp] theorem State.appendPulse_buf : (s.appendPulse d).buf = s.buf.setIfInBounds s.pulseN (some d) := rfl
@[simp] theorem State.appendPulse_codeValid : (s.appendPulse d).codeValid = s.codeValid := rfl
@[simp] theorem State.appendPulse_code : (s.appendPulse d).code = s.code := rfl
@[simp] theorem State.appendPulse_table : (s.appendPulse d).table = s.table := rfl
@[simp] theorem State.appendPulse_learn : (s.appendPulse d).learn = s.learn := rfl
@[simp] theorem State.appendPulse_out : (s.appendPulse d).out = s.out := rfl
@[simp] theorem State.appendPulse_holdName : (s.appendPulse d).holdName = s.holdName := rfl
@[simp] theorem State.appendPulse_holdT0Ms : (s.appendPulse d).holdT0Ms = s.holdT0Ms := rfl
@[simp] theorem State.appendPulse_faulted : (s.appendPulse d).faulted = s.faulted := rfl
@[simp] theorem State.appendPulse_resp : (s.appendPulse d).resp = s.resp := rfl
@[simp] theorem State.appendPulse_events : (s.appendPulse d).events = s.events := rfl
end appendPulse

section recordEdge
variable (s : State) (level : Bool) (t : U32)
@[simp] theorem State.recordEdge_cfg : (s.recordEdge level t).cfg = s.cfg := rfl
@[simp] theorem State.recordEdge_inp : (s.recordEdge level t).inp = s.inp := rfl
@[simp] theorem State.recordEdge_queue : (s.recordEdge level t).queue = s.queue := rfl
@[simp] theorem State.recordEdge_draws : (s.recordEdge level t).draws = s.draws := rfl
@[simp] theorem State.recordEdge_phase : (s.recordEdge level t).phase = s.phase := rfl
@[simp] theorem State.recordEdge_syncT0Ms : (s.recordEdge level t).syncT0Ms = s.syncT0Ms := rfl
@[simp] theorem State.recordEdge_edgeT0Us : (s.recordEdge level t).edgeT0Us = some t := rfl
@[simp] theorem State.recordEdge_edgeLevel : (s.recordEdge level t).edgeLevel = some level := rfl
@[simp] theorem State.recordEdge_pulseN : (s.recordEdge level t).pulseN = s.pulseN := rfl
@[simp] theorem State.recordEdge_buf : (s.recordEdge level t).buf = s.buf := rfl
@[simp] theorem State.recordEdge_codeValid : (s.recordEdge level t).codeValid = s.codeValid := rfl
@[simp] theorem State.recordEdge_code : (s.recordEdge level t).code = s.code := rfl
@[simp] theorem State.recordEdge_table : (s.recordEdge level t).table = s.table := rfl
@[simp] theorem State.recordEdge_learn : (s.recordEdge level t).learn = s.learn := rfl
@[simp] theorem State.recordEdge_out : (s.recordEdge level t).out = s.out := rfl
@[simp] theorem State.recordEdge_holdName : (s.recordEdge level t).holdName = s.holdName := rfl
@[simp] theorem State.recordEdge_holdT0Ms : (s.recordEdge level t).holdT0Ms = s.holdT0Ms := rfl
@[simp] theorem State.recordEdge_faulted : (s.recordEdge level t).faulted = s.faulted := rfl
@[simp] theorem State.recordEdge_resp : (s.recordEdge level t).resp = s.resp := rfl
@[simp] theorem State.recordEdge_events : (s.recordEdge level t).events = s.events := rfl
end recordEdge

section setTable
variable (s : State) (t : List Entry)
@[simp] theorem State.setTable_cfg : (s.setTable t).cfg = s.cfg := rfl
@[simp] theorem State.setTable_inp : (s.setTable t).inp = s.inp := rfl
@[simp] theorem State.setTable_queue : (s.setTable t).queue = s.queue := rfl
@[simp] theorem State.setTable_draws : (s.setTable t).draws = s.draws := rfl
@[simp] theorem State.setTable_phase : (s.setTable t).phase = s.phase := rfl
@[simp] theorem State.setTable_syncT0Ms : (s.setTable t).syncT0Ms = s.syncT0Ms := rfl
@[simp] theorem State.setTable_edgeT0Us : (s.setTable t).edgeT0Us = s.edgeT0Us := rfl
@[simp] theorem State.setTable_edgeLevel : (s.setTable t).edgeLevel = s.edgeLevel := rfl
@[simp] theorem State.setTable_pulseN : (s.setTable t).pulseN = s.pulseN := rfl
@[simp] theorem State.setTable_buf : (s.setTable t).buf = s.buf := rfl
@[simp] theorem State.setTable_codeValid : (s.setTable t).codeValid = s.codeValid := rfl
@[simp] theorem State.setTable_code : (s.setTable t).code = s.code := rfl
@[simp] theorem State.setTable_table : (s.setTable t).table = t := rfl
@[simp] theorem State.setTable_learn : (s.setTable t).learn = s.learn := rfl
@[simp] theorem State.setTable_out : (s.setTable t).out = s.out := rfl
@[simp] theorem State.setTable_holdName : (s.setTable t).holdName = s.holdName := rfl
@[simp] theorem State.setTable_holdT0Ms : (s.setTable t).holdT0Ms = s.holdT0Ms := rfl
@[simp] theorem State.setTable_faulted : (s.setTable t).faulted = s.faulted := rfl
@[simp] theorem State.setTable_resp : (s.setTable t).resp = s.resp := rfl
@[simp] theorem State.setTable_events : (s.setTable t).events = s.events := rfl
end setTable

section setLearn
variable (s : State) (l : Learn)
@[simp] theorem State.setLearn_cfg : (s.setLearn l).cfg = s.cfg := rfl
@[simp] theorem State.setLearn_inp : (s.setLearn l).inp = s.inp := rfl
@[simp] theorem State.setLearn_queue : (s.setLearn l).queue = s.queue := rfl
@[simp] theorem State.setLearn_draws : (s.setLearn l).draws = s.draws := rfl
@[simp] theorem State.setLearn_phase : (s.setLearn l).phase = s.phase := rfl
@[simp] theorem State.setLearn_syncT0Ms : (s.setLearn l).syncT0Ms = s.syncT0Ms := rfl
@[simp] theorem State.setLearn_edgeT0Us : (s.setLearn l).edgeT0Us = s.edgeT0Us := rfl
@[simp] theorem State.setLearn_edgeLevel : (s.setLearn l).edgeLevel = s.edgeLevel := rfl
@[simp] theorem State.setLearn_pulseN : (s.setLearn l).pulseN = s.pulseN := rfl
@[simp] theorem State.setLearn_buf : (s.setLearn l).buf = s.buf := rfl
@[simp] theorem State.setLearn_codeValid : (s.setLearn l).codeValid = s.codeValid := rfl
@[simp] theorem State.setLearn_code : (s.setLearn l).code = s.code := rfl
@[simp] theorem State.setLearn_table : (s.setLearn l).table = s.table := rfl
@[simp] theorem State.setLearn_learn : (s.setLearn l).learn = l := rfl
@[simp] theorem State.setLearn_out : (s.setLearn l).out = s.out := rfl
@[simp] theorem State.setLearn_holdName : (s.setLearn l).holdName = s.holdName := rfl
@[simp] theorem State.setLearn_holdT0Ms : (s.setLearn l).holdT0Ms = s.holdT0Ms := rfl
@[simp] theorem State.setLearn_faulted : (s.setLearn l).faulted = s.faulted := rfl
@[simp] theorem State.setLearn_resp : (s.setLearn l).resp = s.resp := rfl
@[simp] theorem State.setLearn_events : (s.setLearn l).events = s.events := rfl
end setLearn

section assertLine
variable (s : State) (n : ActionName) (t : U32)
@[simp] theorem State.assertLine_cfg : (s.assertLine n t).cfg = s.cfg := rfl
@[simp] theorem State.assertLine_inp : (s.assertLine n t).inp = s.inp := rfl
@[simp] theorem State.assertLine_queue : (s.assertLine n t).queue = s.queue := rfl
@[simp] theorem State.assertLine_draws : (s.assertLine n t).draws = s.draws := rfl
@[simp] theorem State.assertLine_phase : (s.assertLine n t).phase = s.phase := rfl
@[simp] theorem State.assertLine_syncT0Ms : (s.assertLine n t).syncT0Ms = s.syncT0Ms := rfl
@[simp] theorem State.assertLine_edgeT0Us : (s.assertLine n t).edgeT0Us = s.edgeT0Us := rfl
@[simp] theorem State.assertLine_edgeLevel : (s.assertLine n t).edgeLevel = s.edgeLevel := rfl
@[simp] theorem State.assertLine_pulseN : (s.assertLine n t).pulseN = s.pulseN := rfl
@[simp] theorem State.assertLine_buf : (s.assertLine n t).buf = s.buf := rfl
@[simp] theorem State.assertLine_codeValid : (s.assertLine n t).codeValid = s.codeValid := rfl
@[simp] theorem State.assertLine_code : (s.assertLine n t).code = s.code := rfl
@[simp] theorem State.assertLine_table : (s.assertLine n t).table = s.table := rfl
@[simp] theorem State.assertLine_learn : (s.assertLine n t).learn = s.learn := rfl
@[simp] theorem State.assertLine_out : (s.assertLine n t).out = outSet s.out n true := rfl
@[simp] theorem State.assertLine_holdName : (s.assertLine n t).holdName = some n := rfl
@[simp] theorem State.assertLine_holdT0Ms : (s.assertLine n t).holdT0Ms = some t := rfl
@[simp] theorem State.assertLine_faulted : (s.assertLine n t).faulted = s.faulted := rfl
@[simp] theorem State.assertLine_resp : (s.assertLine n t).resp = s.resp := rfl
@[simp] theorem State.assertLine_events : (s.assertLine n t).events = s.events := rfl
end assertLine

section deassertLine
variable (s : State) (n : ActionName)
@[simp] theorem State.deassertLine_cfg : (s.deassertLine n).cfg = s.cfg := rfl
@[simp] theorem State.deassertLine_inp : (s.deassertLine n).inp = s.inp := rfl
@[simp] theorem State.deassertLine_queue : (s.deassertLine n).queue = s.queue := rfl
@[simp] theorem State.deassertLine_draws : (s.deassertLine n).draws = s.draws := rfl
@[simp] theorem State.deassertLine_phase : (s.deassertLine n).phase = s.phase := rfl
@[simp] theorem State.deassertLine_syncT0Ms : (s.deassertLine n).syncT0Ms = s.syncT0Ms := rfl
@[simp] theorem State.deassertLine_edgeT0Us : (s.deassertLine n).edgeT0Us = s.edgeT0Us := rfl
@[simp] theorem State.deassertLine_edgeLevel : (s.deassertLine n).edgeLevel = s.edgeLevel := rfl
@[simp] theorem State.deassertLine_pulseN : (s.deassertLine n).pulseN = s.pulseN := rfl
@[simp] theorem State.deassertLine_buf : (s.deassertLine n).buf = s.buf := rfl
@[simp] theorem State.deassertLine_codeValid : (s.deassertLine n).codeValid = s.codeValid := rfl
@[simp] theorem State.deassertLine_code : (s.deassertLine n).code = s.code := rfl
@[simp] theorem State.deassertLine_table : (s.deassertLine n).table = s.table := rfl
@[simp] theorem State.deassertLine_learn : (s.deassertLine n).learn = s.learn := rfl
@[simp] theorem State.deassertLine_out : (s.deassertLine n).out = outSet s.out n false := rfl
@[simp] theorem State.deassertLine_holdName : (s.deassertLine n).holdName = s.holdName := rfl
@[simp] theorem State.deassertLine_holdT0Ms : (s.deassertLine n).holdT0Ms = s.holdT0Ms := rfl
@[simp] theorem State.deassertLine_faulted : (s.deassertLine n).faulted = s.faulted := rfl
@[simp] theorem State.deassertLine_resp : (s.deassertLine n).resp = s.resp := rfl
@[simp] theorem State.deassertLine_events : (s.deassertLine n).events = s.events := rfl
end deassertLine

section startCycle
variable (s : State) (now : U32)
@[simp] theorem State.startCycle_cfg : (s.startCycle now).cfg = s.cfg := rfl
@[simp] theorem State.startCycle_inp : (s.startCycle now).inp = s.inp := rfl
@[simp] theorem State.startCycle_queue : (s.startCycle now).queue = s.queue := rfl
@[simp] theorem State.startCycle_draws : (s.startCycle now).draws = s.draws := rfl
@[simp] theorem State.startCycle_phase : (s.startCycle now).phase = .sync := rfl
@[simp] theorem State.startCycle_syncT0Ms : (s.startCycle now).syncT0Ms = some now := rfl
@[simp] theorem State.startCycle_edgeT0Us : (s.startCycle now).edgeT0Us = s.edgeT0Us := rfl
@[simp] theorem State.startCycle_edgeLevel : (s.startCycle now).edgeLevel = s.edgeLevel := rfl
@[simp] theorem State.startCycle_pulseN : (s.startCycle now).pulseN = 0 := rfl
@[simp] theorem State.startCycle_buf : (s.startCycle now).buf = s.buf := rfl
@[simp] theorem State.startCycle_codeValid : (s.startCycle now).codeValid = false := rfl
@[simp] theorem State.startCycle_code : (s.startCycle now).code = none := rfl
@[simp] theorem State.startCycle_table : (s.startCycle now).table = s.table := rfl
@[simp] theorem State.startCycle_learn : (s.startCycle now).learn = s.learn := rfl
@[simp] theorem State.startCycle_out : (s.startCycle now).out = s.out := rfl
@[simp] theorem State.startCycle_holdName : (s.startCycle now).holdName = s.holdName := rfl
@[simp] theorem State.startCycle_holdT0Ms : (s.startCycle now).holdT0Ms = s.holdT0Ms := rfl
@[simp] theorem State.startCycle_faulted : (s.startCycle now).faulted = s.faulted := rfl
@[simp] theorem State.startCycle_resp : (s.startCycle now).resp = s.resp := rfl
@[simp] theorem State.startCycle_events : (s.startCycle now).events = s.events := rfl
end startCycle

section advance
variable (s : State)
@[simp] theorem State.advance_cfg : s.advance.cfg = s.cfg := by
  unfold State.advance; split <;> rfl
@[simp] theorem State.advance_phase : s.advance.phase = s.phase := by
  unfold State.advance; split <;> rfl
@[simp] theorem State.advance_syncT0Ms : s.advance.syncT0Ms = s.syncT0Ms := by
  unfold State.advance; split <;> rfl
@[simp] theorem State.advance_edgeT0Us : s.advance.edgeT0Us = s.edgeT0Us := by
  unfold State.advance; split <;> rfl
@[simp] theorem State.advance_edgeLevel : s.advance.edgeLevel = s.edgeLevel := by
  unfold State.advance; split <;> rfl
@[simp] theorem State.advance_pulseN : s.advance.pulseN = s.pulseN := by
  unfold State.advance; split <;> rfl
@[simp] theorem State.advance_buf : s.advance.buf = s.buf := by
  unfold State.advance; split <;> rfl
@[simp] theorem State.advance_codeValid : s.advance.codeValid = s.codeValid := by
  unfold State.advance; split <;> rfl
@[simp] theorem State.advance_code : s.advance.code = s.code := by
  unfold State.advance; split <;> rfl
@[simp] theorem State.advance_table : s.advance.table = s.table := by
  unfold State.advance; split <;> rfl
@[simp] theorem State.advance_learn : s.advance.learn = s.learn := by
  unfold State.advance; split <;> rfl
@[simp] theorem State.advance_out : s.advance.out = s.out := by
  unfold State.advance; split <;> rfl
@[simp] theorem State.advance_holdName : s.advance.holdName = s.holdName := by
  unfold State.advance; split <;> rfl
@[simp] theorem State.advance_holdT0Ms : s.advance.holdT0Ms = s.holdT0Ms := by
  unfold State.advance; split <;> rfl
@[simp] theorem State.advance_faulted : s.advance.faulted = s.faulted := by
  unfold State.advance; split <;> rfl
@[simp] theorem State.advance_resp : s.advance.resp = s.resp := by
  unfold State.advance; split <;> rfl
@[simp] theorem State.advance_events : s.advance.events = s.events := by
  unfold State.advance; split <;> rfl

/-- With a sample in line, the next step reads it. -/
theorem State.advance_of_cons {s : State} {x : Sample} {q : List Sample} (h : s.queue = x :: q) :
    s.advance = { s with inp := x, queue := q } := by
  simp [State.advance, h]

/-- With none in line, the next step reads a free sample. -/
theorem State.advance_of_nil {s : State} (h : s.queue = []) :
    s.advance = { s with inp := Config.freeSample s.draws, draws := s.draws + 1 } := by
  simp [State.advance, h]

/-- The inputs just read leave no trace in the next state. -/
theorem State.advance_of_inp (s : State) (x : Sample) : ({ s with inp := x } : State).advance = s.advance := by
  unfold State.advance; cases s.queue <;> simp
end advance

end Sys2Proof.Machine
end

