-- ==== Sys2Proof/Laws/Meanings.lean ====
section
/-! SUPPORT. What each meaning can answer: one lemma per instruction, cited instead of unfolding it. -/

namespace Sys2Proof.Machine

theorem raiseFault_eq (r : FaultReason) (s : State) : raiseFault r s = .next (faultedFrom s r) := rfl

@[simp] theorem withValue_some {α : Type} (a : α) (s : State) (k : α → Result) : withValue (some a) s k = k a := rfl

@[simp] theorem withValue_none {α : Type} (s : State) (k : α → Result) :
    withValue none s k = .next (faultedFrom s .unwrittenRead) := rfl

/-- ARM's learning state: the one before, or a new session from Idle with valid operands. -/
theorem armLearn_cases (n : U8) (t : U32) (s : State) :
    armLearn n t s = s.learn ∨ (s.learn = .idle ∧ isKnownCode n = true ∧ t < timeoutLimit ∧
      armLearn n t s = .listening (nameOfCode n) (deadlineOf s.inp.nowMs t)) := by
  by_cases hok : armStatus n t s.learn = .ok
  · right
    have hl : armLearn n t s = .listening (nameOfCode n) (deadlineOf s.inp.nowMs t) := by
      rw [armLearn, if_pos hok]
    unfold armStatus at hok
    split_ifs at hok with h1 h2 h3
    exact ⟨not_not.mp h3, Bool.eq_true_of_not_eq_false h1, BitVec.not_le.mp h2, hl⟩
  · left; rw [armLearn, if_neg hok]

theorem armEvents_length (n : U8) (t : U32) (l : Learn) : (armEvents n t l).length ≤ 1 := by
  unfold armEvents; split <;> simp

/-- What a BOUNDARY step does to the state, for whatever command word it takes. -/
theorem decodedStep_eq (d : Decoded) (s : State) :
    ∃ l r es, decodedStep d s = boundaryStep l (some r) es s ∧ es.length ≤ 1 ∧
      (l = s.learn ∨ (s.learn = .idle ∧ ∃ n t, d = .instr (.arm n t) ∧ isKnownCode n = true ∧ t < timeoutLimit ∧
        l = .listening (nameOfCode n) (deadlineOf s.inp.nowMs t))) := by
  rcases d with (⟨n, t⟩ | _) | _
  · refine ⟨armLearn n t s, _, armEvents n t s.learn, rfl, armEvents_length n t _, ?_⟩
    rcases armLearn_cases n t s with h | ⟨hi, hk, ht, h⟩
    · exact .inl h
    · exact .inr ⟨hi, n, t, rfl, hk, ht, h⟩
  all_goals exact ⟨s.learn, _, [], rfl, Nat.zero_le _, .inl rfl⟩

/-- What a BOUNDARY step does to the state, with or without a command. -/
theorem boundaryTake_eq (s : State) :
    ∃ l r es, boundaryTake s = boundaryStep l r es s ∧ es.length ≤ 1 ∧ (r = none ↔ s.inp.cmd = none) ∧
      (l = s.learn ∨ (s.learn = .idle ∧ ∃ w n t, s.inp.cmd = some w ∧ decodeCommand w = .instr (.arm n t) ∧
        isKnownCode n = true ∧ t < timeoutLimit ∧ l = .listening (nameOfCode n) (deadlineOf s.inp.nowMs t))) := by
  cases hc : s.inp.cmd with
  | none => exact ⟨s.learn, none, [], by simp [boundaryTake, hc], Nat.zero_le _, by simp, .inl rfl⟩
  | some w =>
    obtain ⟨l, r, es, he, hlen, hl⟩ := decodedStep_eq (decodeCommand w) s
    refine ⟨l, some r, es, by simp [boundaryTake, hc, he], hlen, by simp, hl.imp_right ?_⟩
    rintro ⟨hi, n, t, hd, hk, ht, hl⟩
    exact ⟨hi, w, n, t, rfl, hd, hk, ht, hl⟩

/-- SYNC: UnwrittenRead, or the move to the phase its inputs select. -/
theorem execSync_cases {s t : State} (h : execSync s = .next t) :
    (s.syncT0Ms = none ∧ t = faultedFrom s .unwrittenRead) ∨
    ∃ t0, s.syncT0Ms = some t0 ∧ t = (s.goto (syncNext s.cfg.idleTimeoutMs t0 s.inp)).drive none [] := by
  unfold execSync at h
  cases h0 : s.syncT0Ms with
  | none => rw [h0, withValue_none] at h; cases h; exact .inl ⟨rfl, rfl⟩
  | some t0 => rw [h0, withValue_some] at h; cases h; exact .inr ⟨t0, rfl, rfl⟩

/-- EDGE_WAIT: UnwrittenRead; or the timeout; or the append of a change; or another poll. -/
theorem execEdgeWait_cases {s t : State} (h : execEdgeWait s = .next t) :
    t = faultedFrom s .unwrittenRead ∧ (s.edgeT0Us = none ∨ s.edgeLevel = none) ∨
    ∃ t0, s.edgeT0Us = some t0 ∧
      ((timedOut s.inp.nowUs t0 s.cfg.pulseTimeoutUs = true ∧ t = (s.goto .decode).drive none []) ∨
       (timedOut s.inp.nowUs t0 s.cfg.pulseTimeoutUs = false ∧ ∃ level, s.edgeLevel = some level ∧
        ((s.inp.line ≠ level ∧ s.pulseN < 100 ∧
          t = ((s.appendPulse (udiff32 s.inp.nowUs t0)).goto
                (if s.pulseN + 1 = 100 then .decode else .edgeRec)).drive none []) ∨
         (s.inp.line = level ∧ t = (s.goto .edgeWait).drive none [])))) := by
  unfold execEdgeWait at h
  cases h0 : s.edgeT0Us with
  | none => rw [h0, withValue_none] at h; cases h; exact .inl ⟨rfl, .inl rfl⟩
  | some t0 =>
    rw [h0, withValue_some] at h
    split at h
    next ht => cases h; exact .inr ⟨t0, rfl, .inl ⟨ht, rfl⟩⟩
    next ht =>
      cases h1 : s.edgeLevel with
      | none => rw [h1, withValue_none] at h; cases h; exact .inl ⟨rfl, .inr rfl⟩
      | some level =>
        rw [h1, withValue_some] at h
        refine .inr ⟨t0, rfl, .inr ⟨by simpa using ht, level, rfl, ?_⟩⟩
        split at h
        next hl =>
          unfold appendStep at h
          split at h
          next hn => cases h; exact .inl ⟨hl, hn, rfl⟩
          next => cases h
        next hl => cases h; exact .inr ⟨by simpa using hl, rfl⟩

/-- DECODE: UnwrittenRead, or a verdict and the move to RESOLVE. -/
theorem execDecode_cases {s t : State} (h : execDecode s = .next t) :
    (necDecode (readPulse s) s.pulseN = .unwritten ∧ t = faultedFrom s .unwrittenRead) ∨
    ∃ c, t = ((s.setVerdict c).goto .resolve).drive none [] := by
  unfold execDecode at h
  cases hv : necDecode (readPulse s) s.pulseN with
  | unwritten => rw [hv] at h; cases h; exact .inl ⟨rfl, rfl⟩
  | accept w => rw [hv] at h; cases h; exact .inr ⟨_, rfl⟩
  | reject => rw [hv] at h; cases h; exact .inr ⟨_, rfl⟩

/-- HOLD: UnwrittenRead, or the end of the hold, or another poll. -/
theorem execHold_cases {s t : State} (h : execHold s = .next t) :
    (t = faultedFrom s .unwrittenRead ∧ (s.holdT0Ms = none ∨ s.holdName = none)) ∨
    ∃ t0, s.holdT0Ms = some t0 ∧
      ((timedOut s.inp.nowMs t0 assertMs = true ∧ ∃ n, s.holdName = some n ∧
        t = ((s.deassertLine n).goto .boundary).drive none []) ∨
       (timedOut s.inp.nowMs t0 assertMs = false ∧ t = (s.goto .hold).drive none [])) := by
  unfold execHold at h
  cases h0 : s.holdT0Ms with
  | none => rw [h0, withValue_none] at h; cases h; exact .inl ⟨rfl, .inl rfl⟩
  | some t0 =>
    rw [h0, withValue_some] at h
    split at h
    next ht =>
      cases h1 : s.holdName with
      | none => rw [h1, withValue_none] at h; cases h; exact .inl ⟨rfl, .inr rfl⟩
      | some n => rw [h1, withValue_some] at h; cases h; exact .inr ⟨t0, rfl, .inl ⟨ht, n, rfl, rfl⟩⟩
    next ht => cases h; exact .inr ⟨t0, rfl, .inr ⟨by simpa using ht, rfl⟩⟩

/-- RESOLVE: a fault; the dispatch of a known name; or the end of the cycle, with a learning outcome or without one. -/
theorem execResolve_cases {s t : State} (h : execResolve s = .next t) :
    (s.codeValid = true ∧ s.code = none ∧ t = faultedFrom s .unwrittenRead) ∨
    (∃ target d c, s.learn = .listening target d ∧ expired s.inp.nowMs d = false ∧ s.codeValid = true ∧
      s.code = some c ∧ tableBind s.cfg.tableCapacity c target s.table = none ∧ t = faultedFrom s .tableFull) ∨
    (∃ target d, s.learn = .listening target d ∧ expired s.inp.nowMs d = true ∧
      t = ((s.setLearn .idle).goto .boundary).drive none (undecodableEvents s ++ [.learnTimeout target])) ∨
    (∃ target d c u, s.learn = .listening target d ∧ expired s.inp.nowMs d = false ∧ s.codeValid = true ∧
      s.code = some c ∧ tableBind s.cfg.tableCapacity c target s.table = some u ∧
      t = (((s.setTable u).setLearn .idle).goto .boundary).drive none
            (undecodableEvents s ++ [.learnBound target c])) ∨
    (s.codeValid = false ∧ (s.learn = .idle ∨ ∃ target d, s.learn = .listening target d ∧
        expired s.inp.nowMs d = false) ∧
      t = (s.goto .boundary).drive none (undecodableEvents s)) ∨
    (∃ c, s.learn = .idle ∧ s.codeValid = true ∧ s.code = some c ∧
      (∀ n, tableLookup c s.table = some n → isKnown n = false) ∧
      t = (s.goto .boundary).drive none (undecodableEvents s ++ [.decodedUnknown c])) ∨
    (∃ c n, s.learn = .idle ∧ s.codeValid = true ∧ s.code = some c ∧ tableLookup c s.table = some n ∧
      isKnown n = true ∧
      t = ((s.assertLine n s.inp.nowMs).goto .hold).drive none (undecodableEvents s ++ [.decodedKnown n c])) := by
  unfold execResolve at h
  cases hl : s.learn with
  | listening target d =>
    simp only [hl, learnResolve] at h
    split at h
    next he => cases h; exact .inr (.inr (.inl ⟨target, d, rfl, he, rfl⟩))
    next he =>
      have he' : expired s.inp.nowMs d = false := by simpa using he
      split at h
      next hv =>
        cases hc : s.code with
        | none => simp only [readCode, hv, hc] at h; cases h; exact .inl ⟨hv, rfl, rfl⟩
        | some c =>
          simp only [readCode, hv, hc, if_true, withValue_some, learnBind] at h
          split at h
          next hb => cases h; exact .inr (.inl ⟨target, d, c, rfl, he', hv, rfl, hb, rfl⟩)
          next u hb => cases h; exact .inr (.inr (.inr (.inl ⟨target, d, c, u, rfl, he', hv, rfl, hb, rfl⟩)))
      next hv =>
        cases h
        exact .inr (.inr (.inr (.inr (.inl ⟨by simpa using hv, .inr ⟨target, d, rfl, he'⟩, by
          simp [State.drive]⟩))))
  | idle =>
    simp only [hl] at h
    split at h
    next hv =>
      cases hc : s.code with
      | none => simp only [readCode, hv, hc] at h; cases h; exact .inl ⟨hv, rfl, rfl⟩
      | some c =>
        simp only [readCode, hv, hc, if_true, withValue_some, dispatchCode] at h
        cases hk : tableLookup c s.table with
        | none =>
          simp only [hk] at h; cases h
          exact .inr (.inr (.inr (.inr (.inr (.inl ⟨c, rfl, hv, rfl, by simp [hk], rfl⟩)))))
        | some n =>
          simp only [hk] at h
          split at h
          next hn => cases h; exact .inr (.inr (.inr (.inr (.inr (.inr ⟨c, n, rfl, hv, rfl, hk, hn, rfl⟩)))))
          next hn =>
            cases h
            refine .inr (.inr (.inr (.inr (.inr (.inl ⟨c, rfl, hv, rfl, ?_, rfl⟩)))))
            intro m hm
            rw [hk] at hm; cases hm
            simpa using hn
    next hv =>
      cases h
      exact .inr (.inr (.inr (.inr (.inl ⟨by simpa using hv, .inl rfl, by simp [State.drive]⟩))))

end Sys2Proof.Machine
end

