-- ==== Sys2Proof/Laws/PerInstr.lean ====
section
/-! SUPPORT. Family RowTakes: the encoding of an instruction meets the match and mask of its own row of opcode_table.json. -/

namespace Sys2Proof.Laws.RowTakes

/-- The row of `i` takes the encoding of `i`. -/
def Statement (i : Instr) : Prop := (opcodeRow i).takes (encode i) = true

theorem arm (n : U8) (t : U32) : Statement (.arm n t) := by
  have h : encodeArm n t &&& 0x00000000FFFF00FF = 0x0000000000000001 := by
    unfold encodeArm
    ext i hi
    simp only [BitVec.getElem_and, BitVec.getElem_append]
    interval_cases i <;> simp
  simp only [Statement, opcodeRow, OpcodeRow.takes, encode, Encoded.isCommand, Encoded.bits, h, beq_self_eq_true,
    Bool.and_self]

theorem snapshot : Statement .snapshot := rfl
theorem boundary : Statement .boundary := rfl
theorem sync : Statement .sync := rfl
theorem edgeRec : Statement .edgeRec := rfl
theorem edgeWait : Statement .edgeWait := rfl
theorem decode : Statement .decode := rfl
theorem resolve : Statement .resolve := rfl
theorem hold : Statement .hold := rfl

end Sys2Proof.Laws.RowTakes
end

