-- ==== Sys2Proof/Laws/Step.lean ====
section
/-! SUPPORT. What a step can do: the operation it runs in each phase, and the cases in which it answers a next state. -/

namespace Sys2Proof.Machine

/-- A command word is ARM, SNAPSHOT or illegal (30_encoding.md R78). -/
theorem decodeCommand_cases (w : BitVec 64) :
    (∃ n t, decodeCommand w = .instr (.arm n t)) ∨ decodeCommand w = .instr .snapshot ∨
    ∃ e, decodeCommand w = .rejected e := by
  unfold decodeCommand
  split_ifs
  · exact .inl ⟨_, _, rfl⟩
  · exact .inr (.inr ⟨_, rfl⟩)
  · exact .inr (.inl rfl)
  · exact .inr (.inr ⟨_, rfl⟩)
  · exact .inr (.inr ⟨_, rfl⟩)

/-- In every phase but BOUNDARY the phase alone selects the operation. -/
theorem fetch_of_phase {s : State} (h : s.phase ≠ .boundary) :
    fetch s = (match s.phase with
      | .boundary => .boundary
      | .sync     => .sync
      | .edgeRec  => .edgeRec
      | .edgeWait => .edgeWait
      | .decode   => .decode
      | .resolve  => .resolve
      | .hold     => .hold) := by
  unfold fetch fetchWord
  cases hp : s.phase <;> first | exact absurd hp h | rfl

theorem fetchWord_boundary_none {s : State} (h : s.phase = .boundary) (hc : s.inp.cmd = none) :
    fetchWord s = .phase 0 := by
  unfold fetchWord; rw [h, hc]; rfl

theorem fetchWord_boundary_some {s : State} {w : BitVec 64} (h : s.phase = .boundary) (hc : s.inp.cmd = some w) :
    fetchWord s = .command w := by
  unfold fetchWord; rw [h, hc]

/-- At BOUNDARY the operation selected, whichever it is, is the BOUNDARY step on the command presented. -/
theorem exec_fetch_boundary {s : State} (h : s.phase = .boundary) : exec (fetch s) s = .next (boundaryTake s) := by
  cases hc : s.inp.cmd with
  | none =>
    have hf : fetch s = .boundary := by unfold fetch; rw [fetchWord_boundary_none h hc]; rfl
    rw [hf]; rfl
  | some w =>
    have hb : boundaryTake s = decodedStep (decodeCommand w) s := by unfold boundaryTake; rw [hc]
    have hf : fetch s = match decodeCommand w with | .instr i => i | .rejected _ => .boundary := by
      unfold fetch; rw [fetchWord_boundary_some h hc]; rfl
    rcases decodeCommand_cases w with ⟨n, t, hw⟩ | hw | ⟨e, hw⟩
    · rw [hw] at hf hb; rw [hf, hb]; rfl
    · rw [hw] at hf hb; rw [hf, hb]; rfl
    · rw [hw] at hf; rw [hf]; rfl

/-- The three ways a step answers: reset; no step of a faulted core; the operation selected. -/
theorem step_cases {s t : State} (h : step s = .next t) :
    (s.inp.rst = true ∧ s.cfg.wellFormed = true ∧
      t = (State.resetWith s.cfg s.inp s.queue s.draws).advance) ∨
    (s.inp.rst = false ∧ s.faulted = none ∧ ∃ u, exec (fetch s) s = .next u ∧ t = u.advance) := by
  unfold step at h
  split at h
  next hr =>
    unfold resetStep at h
    split at h
    next hc => cases h; exact .inl ⟨hr, hc, rfl⟩
    next => cases h
  next hr =>
    split at h
    next => cases h
    next hf =>
      refine .inr ⟨by simpa using hr, hf, ?_⟩
      cases he : exec (fetch s) s with
      | next u => rw [he] at h; cases h; exact ⟨u, rfl, rfl⟩
      | fault r => rw [he] at h; cases h
      | refused r => rw [he] at h; cases h

end Sys2Proof.Machine
end

