-- ==== Sys2Proof/Laws/Table.lean ====
section
/-! SUPPORT. What the code table's two operations do: lookups, binds, and the form every table keeps. -/

namespace Sys2Proof.Machine

theorem tableLookup_isSome_iff (c : Code) (t : List Entry) :
    (tableLookup c t).isSome = true ↔ c ∈ t.map Entry.key := by
  induction t with
  | nil => simp [tableLookup]
  | cons e t ih =>
    by_cases h : e.key = c
    · simp [tableLookup, h]
    · simp [tableLookup, h, ih, Ne.symm h]

theorem tableOverwrite_keys (c : Code) (n : ActionName) (t : List Entry) :
    (tableOverwrite c n t).map Entry.key = t.map Entry.key := by
  induction t with
  | nil => rfl
  | cons e t ih => by_cases h : e.key = c <;> simp [tableOverwrite, h, ih]

theorem tableOverwrite_namesKnown {c : Code} {n : ActionName} {t : List Entry} (hn : n ≠ .unknown)
    (ht : namesKnown t = true) : namesKnown (tableOverwrite c n t) = true := by
  induction t with
  | nil => rfl
  | cons e t ih =>
    by_cases h : e.key = c <;> simp_all [tableOverwrite, namesKnown]

/-- A bind that succeeds overwrote a key in place, or appended a new one to a table with room. -/
theorem tableBind_cases {cap : Option Nat} {c : Code} {n : ActionName} {t u : List Entry}
    (h : tableBind cap c n t = some u) :
    (c ∈ t.map Entry.key ∧ u = tableOverwrite c n t) ∨
    (c ∉ t.map Entry.key ∧ tableFull cap t = false ∧ u = t ++ [⟨c, n⟩]) := by
  simp only [tableBind, tableLookup_isSome_iff] at h
  split_ifs at h with h1 h2
  · exact .inl ⟨h1, (Option.some.inj h).symm⟩
  · exact .inr ⟨h1, by simpa using h2, (Option.some.inj h).symm⟩

/-- A bind never removes or moves a key (42_codetable.md R144, R146). -/
theorem tableBind_keys {cap : Option Nat} {c : Code} {n : ActionName} {t u : List Entry}
    (h : tableBind cap c n t = some u) : t.map Entry.key <+: u.map Entry.key := by
  obtain ⟨-, rfl⟩ | ⟨-, -, rfl⟩ := tableBind_cases h
  · rw [tableOverwrite_keys]
  · simp

/-- A bind of a known name keeps the table's form: keys distinct, names known, within the capacity. -/
theorem tableBind_wellFormed {cap : Option Nat} {c : Code} {n : ActionName} {t u : List Entry}
    (ht : tableWellFormed cap t = true) (hn : n ≠ .unknown) (h : tableBind cap c n t = some u) :
    tableWellFormed cap u = true := by
  simp only [tableWellFormed, Bool.and_eq_true] at ht ⊢
  obtain ⟨⟨hk, hs⟩, hc⟩ := ht
  obtain ⟨-, rfl⟩ | ⟨hnew, hroom, rfl⟩ := tableBind_cases h
  · refine ⟨⟨?_, tableOverwrite_namesKnown hn hs⟩, ?_⟩
    · simpa [keysDistinct, tableOverwrite_keys] using hk
    · have : (tableOverwrite c n t).length = t.length := by
        simpa using congrArg List.length (tableOverwrite_keys c n t)
      simpa [fitsCapacity, this] using hc
  · refine ⟨⟨?_, ?_⟩, ?_⟩
    · simp only [keysDistinct, decide_eq_true_eq, List.map_append, List.map_cons, List.map_nil] at hk ⊢
      rw [List.nodup_append]
      refine ⟨hk, by simp, ?_⟩
      intro a ha b hb
      rw [List.mem_singleton.mp hb]
      rintro rfl
      exact hnew ha
    · simp_all [namesKnown]
    · cases cap with
      | none => rfl
      | some m =>
        simp only [fitsCapacity, tableFull, decide_eq_true_eq, beq_eq_false_iff_ne, ne_eq, List.length_append,
          List.length_cons, List.length_nil] at hc hroom ⊢
        omega

end Sys2Proof.Machine
end

