-- ==== Sys2Proof/Tests/Slice0.lean ====
section
/-! SUPPORT. Tests of the model against 95_test_vectors.md, and a witness for the hypotheses of every statement. -/

namespace Sys2Proof.Tests

open Sys2Proof Sys2Proof.Machine

/-! ## Helpers: the test configuration TC of 95_test_vectors.md section 0 -/

/-- Code A of section 2.3. -/
def codeA : Code := ⟨0x61, 0xD6, 0xD8, 0x27⟩
/-- Code K of section 2.3. -/
def codeK : Code := ⟨0x11, 0x22, 0x33, 0x44⟩
/-- Code Q of section 2.3. -/
def codeQ : Code := ⟨0x01, 0x02, 0x03, 0x04⟩
/-- The Code of frame B. -/
def codeB : Code := ⟨0x61, 0xD6, 0x48, 0xB7⟩

/-- TC's parameters. -/
def tc : Params := ⟨100, 20000, [⟨codeA, .up⟩], none⟩

/-- A sample with `rst` released. -/
def see (line : Bool) (us ms : U32) : Sample := ⟨false, line, us, ms, none⟩

/-- TC right after reset, about to see `x`. -/
def start (x : Sample) : State := State.resetWith tc x [] 0

/-- TC right after reset at time 0, the line high. -/
def zero : State := start (see true 0 0)

/-- The same with a command presented at `ms`. -/
def given (w : BitVec 64) (ms : U32) : State := start ⟨false, true, 0, ms, some w⟩

/-- SYNC since `t0`. -/
def syncing (t0 : U32) (x : Sample) : State := { start x with phase := .sync, syncT0Ms := some t0 }

/-- EDGE_WAIT at `level` since `t0`, with `n` entries. -/
def timing (level : Bool) (t0 : U32) (n : Nat) (x : Sample) : State :=
  { start x with phase := .edgeWait, edgeLevel := some level, edgeT0Us := some t0, pulseN := n }

/-- A buffer that begins with these entries. -/
def bufOf (l : List U32) : Vector (Option U32) 100 :=
  ⟨((List.range 100).map fun k => l[k]?).toArray, by simp⟩

/-- DECODE on these entries. -/
def captured (l : List U32) : State :=
  { zero with phase := .decode, pulseN := l.length, buf := bufOf l }

/-- RESOLVE at `ms` on a decoded Code. -/
def decoded (c : Code) (l : Learn) (ms : U32) : State :=
  { start (see true 0 ms) with phase := .resolve, pulseN := 67, codeValid := true, code := some c, learn := l }

/-- RESOLVE at `ms` on a capture of `n` entries that gave no Code. -/
def undecoded (n : Nat) (l : Learn) (ms : U32) : State :=
  { start (see true 0 ms) with phase := .resolve, pulseN := n, learn := l }

/-- HOLD of UP's line since `t0`, at `ms`. -/
def holding (t0 ms : U32) : State :=
  { start (see true 0 ms) with
    phase := .hold, out := ⟨false, true, false, false, false, false⟩, holdName := some .up, holdT0Ms := some t0 }

/-- A state with a sticky fault. -/
def stuck : State := { zero with faulted := some .tableFull }

/-- Two entries and no room for a third (V-T7). -/
def fullTc : Params := ⟨100, 20000, [⟨codeA, .up⟩, ⟨codeK, .down⟩], some 2⟩

/-- A field of the next state, if there is one. -/
def after {α : Type} (r : Result) (f : State → α) : Option α :=
  match r with
  | .next s    => some (f s)
  | .fault _   => none
  | .refused _ => none

/-- Mark and space of eight data bits, first bit first. -/
def pulses (l : List Bool) : List U32 := l.flatMap fun b => [560, if b then 1650 else 550]

/-- The bytes of 0x61D648B7 as sequence bits (95_test_vectors.md section 0). -/
def bits61 : List Bool := [false, true, true, false, false, false, false, true]
def bitsD6 : List Bool := [true, true, false, true, false, true, true, false]
def bits48 : List Bool := [false, true, false, false, true, false, false, false]
def bitsB7 : List Bool := [true, false, true, true, false, true, true, true]

/-- Buffer B of section 0. -/
def frameB : List U32 := [9000, 4500] ++ pulses bits61 ++ pulses bitsD6 ++ pulses bits48 ++ pulses bitsB7 ++ [560]

/-! ## WellFormed: each check of R255 refuses a configuration that violates it alone -/

theorem test_wellFormed_tc : tc.wellFormed = true ∧ fullTc.wellFormed = true := by decide

theorem test_wellFormed_refuses_repeated_key :
    ({ tc with seedTable := [⟨codeA, .up⟩, ⟨codeA, .down⟩] } : Params).wellFormed = false := by decide

theorem test_wellFormed_refuses_unknown_name :
    ({ tc with seedTable := [⟨codeA, .unknown⟩] } : Params).wellFormed = false := by decide

theorem test_wellFormed_refuses_over_capacity : ({ tc with tableCapacity := some 0 } : Params).wellFormed = false := by
  decide

/-! ## Encodings (R71, R75 to R79, R85 to R89; section 2.7) -/

/-- R76: OP 1 in [3:0], NAME 2 in [15:8], ARG 10000 = 0x2710 in [63:32]. -/
theorem test_decode_arm : decode (.command 0x0000271000000201) = .instr (.arm 2 10000) ∧
    decode (.command 0x000000FA00000501) = .instr (.arm 5 250) := by decide

theorem test_decode_snapshot : decode (.command 0x0000000000000002) = .instr .snapshot := by decide

theorem test_decode_phases :
    [0#3, 1#3, 2#3, 3#3, 4#3, 5#3, 6#3].map (fun v => decode (.phase v)) =
      [.instr .boundary, .instr .sync, .instr .edgeRec, .instr .edgeWait, .instr .decode, .instr .resolve,
        .instr .hold] ∧ decode (.phase 7#3) = .rejected .phaseNeverHeld := by decide

/-- V-B2 to V-B9. -/
theorem test_decode_illegal :
    [0x0, 0x3, 0xF, 0x0000271000000211, 0x0000271000010201, 0x12, 0x102, 0x0000000100000002].map decodeCommand =
      [.rejected .reservedOp, .rejected .reservedOp, .rejected .reservedOp, .rejected .armReservedField,
        .rejected .armReservedField, .rejected .snapshotReservedField, .rejected .snapshotReservedField,
        .rejected .snapshotReservedField] := by decide

/-- V-E3 to V-E7. -/
theorem test_records :
    eventWord (.decodedKnown .up codeK) = 0x020211223344 ∧ eventWord (.learnTimeout .menu) = 0x060600000000 ∧
    eventWord .undecodable = 0x010000000000 ∧ eventWord (.decodedUnknown codeB) = 0x030061D648B7 ∧
    entryWord ⟨codeK, .up⟩ = 0x1122334402 := by decide

theorem test_table_words : decodeTableWord 64 0x0000271000000201 = some (.arm 2 10000) ∧
    decodeTableWord 64 2 = some .snapshot ∧ decodeTableWord 8 6 = some .hold ∧ decodeTableWord 8 7 = none := by decide

/-! ## ARM (section 2.4) -/

/-- V-L1. -/
theorem test_arm_starts : after (exec .boundary (given 0x0000271000000201 5000))
    (fun t => (t.resp, t.events, t.learn)) =
      some (some ⟨.ok, .empty⟩, [.learnArmed .up], .listening .up 15000) := by decide

/-- V-L10, V-L8, V-L9 and V-L7: the precedence of the errors while Listening. -/
theorem test_arm_errors :
    [0x8000000000010001, 0x8000000000000001, 0x8000000000000201, 0x000003E800000301].map (fun w =>
      after (exec .boundary { given w 6000 with learn := .listening .up 15000 }) (fun t => (t.resp, t.learn))) =
      [Status.illegalCommand, .invalidTarget, .invalidTimeout, .busy].map (fun st =>
        some (some ⟨st, .empty⟩, Learn.listening .up 15000)) := by decide

/-! ## SNAPSHOT and BOUNDARY (sections 2.3 and 2.6) -/

/-- V-T9. -/
theorem test_snapshot : after (exec .snapshot { given 2 0 with table := [⟨codeA, .up⟩, ⟨codeK, .up⟩] }) State.resp =
    some (some ⟨.ok, .snapshot 2 [0x61D6D82702, 0x1122334402]⟩) := by decide

/-- V-B10, through step: SNAPSHOT presented at BOUNDARY. -/
theorem test_step_snapshot : after (step (given 2 7)) (fun t => (t.resp, t.syncT0Ms, t.phase, t.learn)) =
    some (some ⟨.ok, .snapshot 1 [0x61D6D82702]⟩, some 7, .sync, .idle) := by decide

/-- V-B1. -/
theorem test_boundary : after (exec .boundary { decoded codeK .idle 9 with phase := .boundary })
    (fun t => (t.resp, t.events, t.pulseN, t.codeValid)) = some (none, [], 0, false) := by decide

/-- V-B9. -/
theorem test_boundary_illegal : after (step (given 0x0000000100000002 3)) (fun t => (t.resp, t.events, t.phase)) =
    some (some ⟨.illegalCommand, .empty⟩, [], .sync) := by decide

/-! ## Capture (section 2.2) -/

/-- V-C1, V-C2, V-C3. -/
theorem test_sync : [see true 0 1099, see false 0 1099, see false 0 1100].map (fun x =>
    after (exec .sync (syncing 1000 x)) State.phase) = [some .sync, some .edgeRec, some .decode] := by decide

/-- V-C4, V-C5: across the wrap. -/
theorem test_sync_wraps : [see true 0 0x53, see true 0 0x54].map (fun x =>
    after (exec .sync (syncing 0xFFFFFFF0 x)) State.phase) = [some .sync, some .decode] := by decide

/-- V-C7. -/
theorem test_edgeRec : after (exec .edgeRec { start (see false 0x1234 0) with phase := .edgeRec })
    (fun t => (t.phase, t.edgeLevel, t.edgeT0Us)) = some (.edgeWait, some false, some 0x1234) := by decide

/-- V-C9, V-C10, V-C11. -/
theorem test_edgeWait : [see false 20999 0, see true 21000 0, see true 10000 0].map (fun x =>
    after (exec .edgeWait (timing false 1000 5 x)) (fun t => (t.phase, t.pulseN, readPulse t 5))) =
    [some (.edgeWait, 5, none), some (.decode, 5, none), some (.edgeRec, 6, some 9000)] := by decide

/-- V-C13, and V-C15: the 100th entry. -/
theorem test_edgeWait_wraps_and_fills :
    after (exec .edgeWait (timing false 0xFFFFFF00 0 (see true 0x2238 0))) (fun t => readPulse t 0) =
      some (some 9016) ∧
    after (exec .edgeWait (timing false 0 99 (see true 600 0))) (fun t => (t.phase, t.pulseN, readPulse t 99)) =
      some (.decode, 100, some 600) := by decide

/-! ## DECODE (section 2.1) -/

/-- V-D1, V-D2 and V-D3. -/
theorem test_decode_frame : [67, 66, 65].map (fun n =>
    after (exec .decode (captured (frameB.take n))) State.code) = [some (some codeB), some (some codeB), some none] := by
  decide

/-- V-D7g, V-D8a, V-D6a and V-D5b. -/
theorem test_decode_windows : [(3, 1501), (65, 1500), (1, 4000), (0, 8501)].map (fun kv =>
    after (exec .decode (captured (frameB.set kv.1 kv.2))) State.code) =
    [some (some ⟨0xE1, 0xD6, 0x48, 0xB7⟩), some none, some none, some (some codeB)] := by
  decide

/-- Section 0: the durations statements use for F(0x61D648B7) are B. -/
theorem test_frameDurations : frameDurations 0x61D648B7 = frameB := by decide

/-! ## Code table (section 2.3) -/

/-- V-T1 and V-T2. -/
theorem test_lookup : tableLookup codeA [⟨codeA, .up⟩] = some .up ∧
    tableLookup ⟨0x61, 0xD6, 0xD8, 0x26⟩ [⟨codeA, .up⟩] = none := by decide

/-- V-T3, V-T4, V-T7 and V-T8. -/
theorem test_bind : tableBind none codeK .down [⟨codeA, .up⟩] = some [⟨codeA, .up⟩, ⟨codeK, .down⟩] ∧
    tableBind none codeA .menu [⟨codeA, .up⟩, ⟨codeK, .down⟩] = some [⟨codeA, .menu⟩, ⟨codeK, .down⟩] ∧
    tableBind (some 2) codeQ .left [⟨codeA, .up⟩, ⟨codeK, .down⟩] = none ∧
    tableBind (some 2) codeK .left [⟨codeA, .up⟩, ⟨codeK, .down⟩] = some [⟨codeA, .up⟩, ⟨codeK, .left⟩] := by decide

/-! ## RESOLVE and HOLD (sections 2.4 and 2.5) -/

/-- V-L13 and V-L16. -/
theorem test_resolve_learning :
    after (exec .resolve (decoded codeK (.listening .up 15000) 14999)) (fun t => (t.events, t.learn, t.table)) =
      some ([.learnBound .up codeK], .idle, [⟨codeA, .up⟩, ⟨codeK, .up⟩]) ∧
    after (exec .resolve (undecoded 3 (.listening .up 15000) 15000)) (fun t => (t.events, t.learn, t.table)) =
      some ([.undecodable, .learnTimeout .up], .idle, [⟨codeA, .up⟩]) := by decide

/-- V-H1, V-H2 and V-H4. -/
theorem test_resolve_dispatch :
    after (exec .resolve (decoded codeA .idle 20000)) (fun t => (t.events, t.out.up, t.holdT0Ms, t.phase)) =
      some ([.decodedKnown .up codeA], true, some 20000, .hold) ∧
    after (exec .resolve (decoded codeB .idle 0)) (fun t => (t.events, t.out, t.phase)) =
      some ([.decodedUnknown codeB], Outputs.allLow, .boundary) ∧
    after (exec .resolve (undecoded 0 .idle 0)) (fun t => (t.events, t.phase)) = some ([], .boundary) := by decide

/-- V-H5 and V-H6. -/
theorem test_hold : [20399, 20400].map (fun ms => after (exec .hold (holding 20000 ms)) (fun t => (t.phase, t.out.up))) =
    [some (.hold, true), some (.boundary, false)] := by decide

/-- V-H7 and V-H8: across the wrap. -/
theorem test_hold_wraps : [0x8F, 0x90].map (fun ms => after (exec .hold (holding 0xFFFFFF00 ms)) State.phase) =
    [some .hold, some .boundary] := by decide

/-! ## Reset and faults (section 2.8) -/

/-- V-R1. -/
theorem test_reset_ends_hold :
    after (step { holding 0 0 with inp := ⟨true, true, 0, 0, none⟩ }) (fun t => (t.phase, t.out, t.events, t.resp)) =
      some (.boundary, Outputs.allLow, [], none) := by decide

/-- V-R2 and V-R3. -/
theorem test_faulted :
    after (step { stuck with inp := ⟨true, true, 0, 0, none⟩ }) State.faulted = some none ∧
    after (step stuck) State.faulted = none := by decide

/-- V-T7, in the step: the state is as before but for `faulted`. -/
theorem test_full_table : exec .resolve { decoded codeQ (.listening .left 15000) 0 with
      cfg := fullTc, table := fullTc.seedTable } =
    .next { decoded codeQ (.listening .left 15000) 0 with
      cfg := fullTc, table := fullTc.seedTable, faulted := some .tableFull } := rfl

/-! ## Witnesses: for each statement with hypotheses, a state and operands that meet them all, for each clause -/

theorem test_hyp_EncodeOfDecode : decode (.command 0x0000271000000201) = .instr (.arm 2 10000) ∧
    decode (.phase 6) = .instr .hold := by decide

/-- A word of each of the three classes. -/
theorem test_hyp_CommandClassification : decodeCommand 0x000000FA00000601 = .instr (.arm 6 250) ∧
    decodeCommand 2 = .instr .snapshot ∧ decodeCommand 0xFFFFFFFFFFFFFFFF = .rejected .reservedOp := by decide

theorem test_hyp_OpcodeRowsAgreeWithDecoder : decode (.command 2) = .instr .snapshot ∧
    (opcodeRow .snapshot).takes (.command 2) = true ∧ (opcodeRow (.arm 0 0)).takes (.command 0x201) = true := by decide

/-- The ends of the range of known names. -/
theorem test_hyp_NameAndStatusCodes : [0, 1, 6, 7].map isKnownCode = [false, true, true, false] := by decide

/-- No time, and 100 units across the wrap. -/
theorem test_hyp_ElapsedTimeIsExact : (5 ≤ 5 ∧ 5 - 5 < 2 ^ 32) ∧
    (4294967286 ≤ 4294967386 ∧ 4294967386 - 4294967286 < 2 ^ 32 ∧
      udiff32 (BitVec.ofNat 32 4294967386) (BitVec.ofNat 32 4294967286) = 100) := by decide

/-- A session armed at 5000 for 10000: the last instant before the deadline, the first and the last of its expiry. -/
theorem test_hyp_ExpiryIsExact : 10000 < 2 ^ 31 ∧ 5000 ≤ 14999 ∧ 14999 < 5000 + 10000 ∧
    5000 + 10000 ≤ 15000 ∧ 15000 < 5000 + 10000 + 2 ^ 31 ∧ 2147498647 < 5000 + 10000 + 2 ^ 31 := by decide

/-- A clock that ticks once a sample, and the longest wait the statement covers. -/
theorem test_hyp_ClockPremisesEndEveryWait : ClockPremises id (BitVec.ofNat 32) ∧ (0x80000000 : U32).toNat ≤ 2 ^ 31 :=
  ⟨⟨fun _ => rfl, fun k => ⟨Nat.le_succ k, by simp⟩, fun b => ⟨b, le_rfl⟩⟩, by decide⟩

/-- V-R5 (Listening), and V-R2 (faulted). -/
theorem test_hyp_ResetStepGivesResetState :
    (∃ s : State, s.inp.rst = true ∧ s.cfg.wellFormed = true ∧ s.learn ≠ .idle) ∧
    ∃ s t : State, step s = .next t ∧ s.faulted ≠ none :=
  ⟨⟨{ decoded codeK (.listening .up 15000) 0 with inp := ⟨true, true, 0, 0, none⟩ }, by decide⟩,
    { stuck with inp := ⟨true, true, 0, 0, none⟩ }, _, rfl, by decide⟩

theorem test_hyp_BadConfigurationIsRefused : ∃ s : State, s.inp.rst = true ∧ s.cfg.wellFormed = false :=
  ⟨{ zero with cfg := { tc with tableCapacity := some 0 }, inp := ⟨true, true, 0, 0, none⟩ }, by decide⟩

theorem test_hyp_SeedResolvesAfterReset : fullTc.wellFormed = true ∧ ⟨codeK, .down⟩ ∈ fullTc.seedTable := by decide

theorem test_hyp_FaultedCoreTakesNoStep : stuck.faulted = some .tableFull ∧ stuck.inp.rst = false := by decide

theorem test_hyp_RaisingHasNoOtherEffect : ∃ (i : Instr) (s t : State) (r : FaultReason),
    s.faulted = none ∧ exec i s = .next t ∧ t.faulted = some r :=
  ⟨.sync, zero, _, .unwrittenRead, rfl, rfl, rfl⟩

/-- The hypotheses of each clause: a hand-built state for SYNC, EDGE_WAIT (four), DECODE, RESOLVE (two) and HOLD (two). -/
theorem test_hyp_ReadsWithoutValueRaise :
    zero.syncT0Ms = none ∧ zero.edgeT0Us = none ∧
    (timing false 0 0 (see true 19999 0)).edgeT0Us = some 0 ∧ timedOut 19999 0 tc.pulseTimeoutUs = false ∧
    ({ timing false 0 0 (see true 19999 0) with edgeLevel := none } : State).edgeLevel = none ∧
    (timing false 0 100 (see true 19999 0)).edgeLevel = some false ∧ true ≠ false ∧
    100 ≤ (timing false 0 100 (see true 19999 0)).pulseN ∧
    66 ≤ (timing false 0 66 (see true 0 0)).pulseN ∧ readPulse (timing false 0 66 (see true 0 0)) 0 = none ∧
    ({ zero with codeValid := true } : State).learn = .idle ∧ ({ zero with codeValid := true } : State).code = none ∧
    ({ zero with codeValid := true, learn := .listening .up 1 } : State).learn = .listening .up 1 ∧
    expired 0 1 = false ∧ zero.holdT0Ms = none ∧
    ({ holding 0 400 with holdName := none } : State).holdT0Ms = some 0 ∧
    timedOut (holding 0 400).inp.nowMs 0 400 = true ∧ ({ holding 0 400 with holdName := none } : State).holdName = none := by
  decide

/-- BOUNDARY with a command, without one, with an illegal one; another phase; and both ways to take a sample. -/
theorem test_hyp_StepRunsSelectedOperation :
    zero.inp.rst = false ∧ zero.faulted = none ∧ decode (fetchWord zero) = .instr .boundary ∧
    (given 2 0).phase = .boundary ∧ (given 2 0).inp.cmd = some 2 ∧ fetch (given 2 0) = .snapshot ∧
    (syncing 0 (see true 0 0)).phase ≠ .boundary ∧ fetch (syncing 0 (see true 0 0)) = .sync ∧
    decodeCommand 3 = .rejected .reservedOp ∧ fetch (given 3 0) = .boundary ∧
    ({ zero with queue := [see true 1 1] } : State).queue = [see true 1 1] ∧ zero.queue = [] := by decide

theorem test_hyp_PlacedWordRuns : decode (.command 0x0000271000000201) = .instr (.arm 2 10000) ∧
    fetch (place (.command 0x0000271000000201) stuck) = .arm 2 10000 ∧ fetch (place (.phase 4) stuck) = .decode := by decide

/-- No command, an illegal one, and one that decodes. -/
theorem test_hyp_BoundaryStartsCycle : zero.inp.cmd = none ∧
    (given 0x12 0).inp.cmd = some 0x12 ∧ decodeCommand 0x12 = .rejected .snapshotReservedField ∧
    (given 2 0).inp.cmd = some 2 ∧ decodeCommand 2 = .instr .snapshot := by decide

/-- V-L5 and V-L12: the ends of the range of timeouts, and of targets. -/
theorem test_hyp_ArmStartsSession : zero.learn = .idle ∧ isKnownCode 1 = true ∧ isKnownCode 6 = true ∧
    (0 : U32).toNat < 2 ^ 31 ∧ (0x7FFFFFFF : U32).toNat < 2 ^ 31 := by decide

/-- V-L2, V-L3, V-L4 and V-L7. -/
theorem test_hyp_ArmErrorStatuses : isKnownCode 0 = false ∧ isKnownCode 7 = false ∧
    2 ^ 31 ≤ (0x80000000 : U32).toNat ∧ 2 ^ 31 ≤ (0xFFFFFFFF : U32).toNat ∧ isKnownCode 3 = true ∧
    (1000 : U32).toNat < 2 ^ 31 ∧ (decoded codeK (.listening .up 15000) 0).learn ≠ .idle := by decide

/-- V-B2 (ILLEGAL_COMMAND) and V-L2 (INVALID_TARGET). -/
theorem test_hyp_FailedCommandHasNoEffect :
    (∃ t u, exec .boundary (given 0 0) = .next t ∧
      exec .boundary { given 0 0 with inp := { (given 0 0).inp with cmd := none } } = .next u ∧
      Status.illegalCommand ≠ .ok ∧ t.resp = some ⟨.illegalCommand, .empty⟩) ∧
    (∃ t, exec .boundary (given 0x000003E800000001 0) = .next t ∧ t.resp = some ⟨.invalidTarget, .empty⟩) :=
  ⟨⟨_, _, rfl, rfl, by decide, by decide⟩, ⟨_, rfl, by decide⟩⟩

theorem test_hyp_SyncWaitsForStart : (syncing 0xFFFFFFF0 (see false 0 0x53)).syncT0Ms = some 0xFFFFFFF0 := by decide

/-- V-C10, V-C15 (a change) and V-C9 (no change), at the limits of elapsed time and of the count. -/
theorem test_hyp_EdgeWaitAppends :
    [timing false 1000 5 (see true 21000 0), timing false 0 99 (see true 600 0), timing false 1000 5 (see false 20999 0)].map
      (fun s => (s.edgeT0Us.isSome, s.edgeLevel, decide (s.pulseN < 100), s.inp.line,
        s.edgeT0Us.map fun t0 => decide (s.cfg.pulseTimeoutUs.toNat ≤ (s.inp.nowUs - t0).toNat))) =
      [(true, some false, true, true, some true), (true, some false, true, true, some false),
        (true, some false, true, false, some false)] := by decide

/-- EDGE_REC about to see a waveform. -/
def seeing (l : List Sample) : State := { start (l.headD (see true 0 0)) with phase := .edgeRec, queue := l.tail }

theorem seeing_samples (l : List Sample) (h : l ≠ []) : (seeing l).inp :: (seeing l).queue = l ++ [] := by
  cases l with
  | nil => exact absurd rfl h
  | cons x l => simp [seeing, start, State.resetWith]

/-- 100 pulses (V-C21 cut to its captured part), the most there can be; `[100]` alone meets the bounds too. -/
theorem test_hyp_CaptureRecordsWaveform : ∃ (s : State) (ds : List U32), s.phase = .edgeRec ∧ s.faulted = none ∧
    s.pulseN = 0 ∧ ds ≠ [] ∧ ds.length = 100 ∧ (∀ d ∈ ds, d < s.cfg.pulseTimeoutUs) ∧
    s.inp :: s.queue = edgeSamples 0 false 0 ds ++ [] := by
  refine ⟨seeing (edgeSamples 0 false 0 (List.replicate 100 600)), List.replicate 100 600, rfl, rfl, rfl, by decide,
    by simp, ?_, seeing_samples _ (List.cons_ne_nil _ _)⟩
  intro d h
  rw [List.eq_of_mem_replicate h]
  decide

/-- Buffer B, whole and at its shortest; and a sequence too short, of which nothing is asked. -/
theorem test_hyp_DecodeJudgesSequence : examinedHeld (captured frameB) ∧ examinedHeld (captured (frameB.take 66)) ∧
    ¬ 66 ≤ (captured (frameB.take 65)).pulseN := by
  have h : ∀ s : State, (∀ k, k < 66 → readPulse s k = some (storedPulse s k)) → examinedHeld s := by
    intro s h k hk
    apply h
    rcases hk with rfl | rfl | ⟨i, hi, rfl⟩ <;> omega
  exact ⟨h _ (by decide), h _ (by decide), by decide⟩

/-- B, and B with another entry 2 (V-D9a). -/
theorem test_hyp_DecodeIgnoresOtherEntries : ∃ s u : State, 66 ≤ s.pulseN ∧ 66 ≤ u.pulseN ∧ examinedHeld s ∧
    examinedHeld u ∧ (∀ k, examined k → storedPulse s k = storedPulse u k) ∧ s ≠ u := by
  have h : ∀ s : State, (∀ k, k < 66 → readPulse s k = some (storedPulse s k)) → examinedHeld s := by
    intro s h k hk
    apply h
    rcases hk with rfl | rfl | ⟨i, hi, rfl⟩ <;> omega
  refine ⟨captured frameB, captured (frameB.set 2 0), by decide, by decide, h _ (by decide), h _ (by decide), ?_, by decide⟩
  have e : ∀ k, k < 66 → k ≠ 2 → storedPulse (captured frameB) k = storedPulse (captured (frameB.set 2 0)) k := by decide
  intro k hk
  apply e <;> rcases hk with rfl | rfl | ⟨i, hi, rfl⟩ <;> omega

/-- F(0x61D648B7) and then a high line past the pulse timeout (V-C20). -/
theorem test_hyp_FrameOnLineBecomesItsCode : ∃ (s : State) (x y z : Sample),
    s.phase = .edgeRec ∧ s.faulted = none ∧ s.pulseN = 0 ∧ (9000 : U32) < s.cfg.pulseTimeoutUs ∧
    s.inp :: s.queue = edgeSamples 0 false 0 (frameDurations 0x61D648B7) ++ x :: y :: z :: [] ∧
    x.rst = false ∧ y.rst = false ∧ z.rst = false ∧ timedOut y.nowUs x.nowUs s.cfg.pulseTimeoutUs = true :=
  ⟨seeing (edgeSamples 0 false 0 (frameDurations 0x61D648B7) ++ [see true 67180 0, see true 87180 0, see true 87180 0]),
    see true 67180 0, see true 87180 0, see true 87180 0, rfl, rfl, rfl, by decide, by decide, rfl, rfl, rfl, by decide⟩

theorem test_hyp_LookupIsExact : keysDistinct [⟨codeA, .up⟩, ⟨codeK, .up⟩] = true ∧
    tableLookup codeK [⟨codeA, .up⟩, ⟨codeK, .up⟩] = some .up ∧ tableLookup codeQ [⟨codeA, .up⟩] = none := by decide

/-- A full table, an overwrite in it, and an append. -/
theorem test_hyp_BindOverwritesOrAppends : tableBind (some 1) codeK .up [⟨codeA, .up⟩] = none ∧
    tableBind (some 1) codeA .down [⟨codeA, .up⟩] = some [⟨codeA, .down⟩] ∧
    tableBind (some 2) codeK .up [⟨codeA, .up⟩] = some [⟨codeA, .up⟩, ⟨codeK, .up⟩] ∧ codeK ≠ codeA := by decide

/-- V-L14, V-L13 and V-L15: at the deadline, and one before it with and without a Code. -/
theorem test_hyp_LearningResolves :
    (decoded codeK (.listening .up 15000) 15000).learn = .listening .up 15000 ∧ expired 15000 15000 = true ∧
    expired 14999 15000 = false ∧ (decoded codeK (.listening .up 15000) 14999).code = some codeK ∧
    tableBind tc.tableCapacity codeK .up tc.seedTable = some [⟨codeA, .up⟩, ⟨codeK, .up⟩] ∧
    (undecoded 3 (.listening .up 15000) 14999).codeValid = false := by decide

/-- V-L20. -/
theorem test_hyp_LearningTakesPriority : ∃ t, (decoded codeA (.listening .up 15000) 200).learn = .listening .up 15000 ∧
    exec .resolve (decoded codeA (.listening .up 15000) 200) = .next t :=
  ⟨_, rfl, rfl⟩

/-- V-T7. -/
theorem test_hyp_FullTableFaults : expired 0 15000 = false ∧ tableLookup codeQ fullTc.seedTable = none ∧
    fullTc.tableCapacity = some fullTc.seedTable.length ∧ (decoded codeQ (.listening .left 15000) 0).codeValid = true := by
  decide

/-- V-H1. -/
theorem test_hyp_KnownCodeIsDispatched : (decoded codeA .idle 20000).learn = .idle ∧
    (decoded codeA .idle 20000).codeValid = true ∧ (decoded codeA .idle 20000).code = some codeA ∧
    tableLookup codeA (decoded codeA .idle 20000).table = some .up ∧ isKnown .up = true ∧
    ActionName.down ≠ .up := by decide

/-- V-H2 and V-H3, and a table that maps the Code to the sentinel. -/
theorem test_hyp_UnknownCodeIsReported : (decoded codeB .idle 0).codeValid = true ∧
    tableLookup codeB (decoded codeB .idle 0).table = none ∧
    tableLookup codeB [⟨codeB, .unknown⟩] = some .unknown ∧ isKnown .unknown = false ∧
    (undecoded 5 .idle 0).learn = .idle ∧ (undecoded 5 .idle 0).codeValid = false := by decide

/-- V-H3 (reported) and V-H4 (not). -/
theorem test_hyp_UndecodableExactly : [1, 0].map (fun n => after (exec .resolve (undecoded n .idle 0))
    (fun t => (t.faulted, t.events))) = [some (none, [.undecodable]), some (none, [])] := by decide

theorem test_hyp_ResolveFrame : ∃ t, exec .resolve (decoded codeA .idle 20000) = .next t := ⟨_, rfl⟩

/-- V-H5 and V-H6: 399 ms and 400 ms. -/
theorem test_hyp_HoldDeassertsAfterAssertTime : (holding 20000 20399).holdName = some .up ∧
    (holding 20000 20399).holdT0Ms = some 20000 ∧ ((holding 20000 20399).inp.nowMs - 20000).toNat < 400 ∧
    400 ≤ ((holding 20000 20400).inp.nowMs - 20000).toNat := by decide

/-- Two samples of the hold, the second at its last millisecond, then the one that ends it. -/
theorem test_hyp_HoldRunsToItsEnd : ∃ (s : State) (before : List Sample) (last : Sample),
    s.phase = .hold ∧ s.faulted = none ∧ s.holdName = some .up ∧ s.holdT0Ms = some 20000 ∧
    s.inp :: s.queue = before ++ last :: [] ∧ (∀ x ∈ before, x.rst = false ∧ (x.nowMs - 20000).toNat < 400) ∧
    last.rst = false ∧ 400 ≤ (last.nowMs - 20000).toNat :=
  ⟨{ holding 20000 20000 with queue := [see true 0 20399, see true 0 20400] }, [see true 0 20000, see true 0 20399],
    see true 0 20400, rfl, rfl, rfl, rfl, rfl, by decide, rfl, by decide⟩

/-- A step from each phase. -/
theorem test_hyp_PhaseFollowsTransitionTable : [zero, syncing 1000 (see false 0 1099),
      { start (see false 0 0) with phase := .edgeRec }, timing false 0 99 (see true 600 0), captured frameB,
      decoded codeA .idle 20000, holding 20000 20400].map (fun s => after (step s) (fun t => (s.phase, t.phase, t.faulted))) =
    [some (.boundary, .sync, none), some (.sync, .edgeRec, none), some (.edgeRec, .edgeWait, none),
      some (.edgeWait, .decode, none), some (.decode, .resolve, none), some (.resolve, .hold, none),
      some (.hold, .boundary, none)] := by decide

/-- V-C1, V-C9 and V-H5. -/
theorem test_hyp_OnlyWaitsRepeat : [syncing 1000 (see true 0 1099), timing false 1000 5 (see false 20999 0),
      holding 20000 20399].map (fun s => after (step s) (fun t => (s.inp.rst, t.faulted, decide (t.phase = s.phase)))) =
    List.replicate 3 (some (false, none, true)) := by decide

/-- V-L1 and V-L13. -/
theorem test_hyp_LearnChangesOnlyByArmOrResolve : [given 0x0000271000000201 5000,
      decoded codeK (.listening .up 15000) 14999].map (fun s => after (step s) (fun t =>
      (s.inp.rst, decide (t.learn ≠ s.learn)))) = List.replicate 2 (some (false, true)) := by decide

/-- V-L13 changes the table and V-L14 does not. -/
theorem test_hyp_TableOnlyGrows : [14999, 15000].map (fun ms =>
      after (step (decoded codeK (.listening .up 15000) ms)) (fun t => t.table.length)) = [some 2, some 1] := by decide

theorem test_hyp_CommandReadOnlyAtBoundary : (holding 0 0).phase ≠ .boundary ∧ (holding 0 0).faulted = none := by decide

/-- A phase that reads neither the line nor now_us (HOLD), and one that reads neither the line nor either clock (DECODE). -/
theorem test_hyp_LineAndClocksReadByTheirPhases :
    [(holding 0 0).phase, (captured frameB).phase].map (fun p => (decide (p ≠ .sync ∧ p ≠ .edgeRec ∧ p ≠ .edgeWait),
      decide (p ≠ .boundary ∧ p ≠ .sync ∧ p ≠ .resolve ∧ p ≠ .hold))) = [(true, false), (true, true)] := by decide

/-- V-L16. -/
theorem test_hyp_AtMostTwoEventsPerStep :
    after (step (undecoded 3 (.listening .up 15000) 15000)) (fun t => t.events.length) = some 2 := by decide

/-- A command taken, and a step without one. -/
theorem test_hyp_ResponseExactlyForCommands : [given 0 0, zero].map (fun s =>
    after (step s) (fun t => (s.inp.rst, decide (t.resp ≠ none)))) = [some (false, true), some (false, false)] := by decide

/-- The reset state of TC meets the invariant, and so does a state in HOLD. -/
theorem test_hyp_StepKeepsInvariant : (Inv zero ∧ ∃ t, step zero = .next t) ∧ Inv (holding 0 0) := by
  refine ⟨⟨?_, _, rfl⟩, ?_⟩
  · exact ⟨by decide, by decide, by decide, by simp [zero, start, State.resetWith], by decide, by decide,
      by simp [zero, start, State.resetWith], by decide, by decide, by decide, by decide, by decide, by decide, by decide⟩
  · refine ⟨by decide, by decide, by decide, by simp [holding, start, State.resetWith], by decide, by decide,
      by simp [holding, start, State.resetWith], by decide, by decide, by decide, by decide, ?_, by decide, by decide⟩
    exact fun _ => ⟨.up, rfl, rfl, rfl, rfl⟩

theorem test_hyp_RunningCoreAlwaysSteps : Inv zero ∧ zero.faulted = none ∧ zero.cfg.tableCapacity = none :=
  ⟨test_hyp_StepKeepsInvariant.1.1, rfl, rfl⟩

/-- A line asserted in HOLD, and the RESOLVE step that asserts one (V-H1). -/
theorem test_hyp_AtMostOneLineAsserted : Inv (holding 0 0) ∧ outGet (holding 0 0).out .up = true ∧
    outGet (decoded codeA .idle 20000).out .up = false ∧
    after (step (decoded codeA .idle 20000)) (fun t => outGet t.out .up) = some true :=
  ⟨test_hyp_StepKeepsInvariant.2, by decide, by decide, by decide⟩

end Sys2Proof.Tests
end

section

/-! # Elapsed time and windows (00_scope.md R10, R11) -/

namespace Sys2Proof.Machine

/-- R10: on samples, elapsed time is subtraction modulo 2^32. -/
theorem udiff32_toNat (now before : U32) :
    (udiff32 now before).toNat = (now.toNat + (2 ^ 32 - before.toNat)) % 2 ^ 32 := by
  rw [udiff32, BitVec.toNat_sub, Nat.add_comm]

/-- Sampling commutes with elapsed time: a sample's wrap cancels in the difference. -/
theorem udiff32_ofNat {now before : Nat} (h : before ≤ now) :
    udiff32 (BitVec.ofNat 32 now) (BitVec.ofNat 32 before) = BitVec.ofNat 32 (now - before) := by
  rw [udiff32, sub_eq_iff_eq_add, ← BitVec.ofNat_add, Nat.sub_add_cancel h]

/-- R10: a real elapsed time below 2^32 units is read exactly. -/
theorem udiff32_ofNat_toNat {now before : Nat} (h : before ≤ now) (hlt : now - before < 2 ^ 32) :
    (udiff32 (BitVec.ofNat 32 now) (BitVec.ofNat 32 before)).toNat = now - before := by
  rw [udiff32_ofNat h, BitVec.toNat_ofNat, Nat.mod_eq_of_lt hlt]

/-- R11: membership in a window is a pair of strict comparisons of unsigned integers. -/
theorem inOpen_iff {v lo hi : U32} :
    inOpen v lo hi = true ↔ lo.toNat < v.toNat ∧ v.toNat < hi.toNat := by
  rw [inOpen, Bool.and_eq_true, decide_eq_true_iff, decide_eq_true_iff, BitVec.lt_def, BitVec.lt_def]

/-- Settles O10: the modular difference, and its exactness because sampling commutes with `udiff32`. -/
theorem elapsedTimeIsExact : Obligations.ElapsedTimeIsExact :=
  ⟨udiff32_toNat, fun _ _ => udiff32_ofNat_toNat⟩

/-- Settles O11: `inOpen` compares as unsigned integers. -/
theorem windowsAreOpen : Obligations.WindowsAreOpen :=
  fun _ _ _ => inOpen_iff

end Sys2Proof.Machine
end

section

/-! # The step and what it reads (10_state.md R21, R40 to R47; 45_cycle.md R202) -/

namespace Sys2Proof.Machine

/-! ## The operation of each phase -/

/-- The operation a phase runs; at BOUNDARY it takes the command presented, whichever that is (log entry 5). -/
def execPhase (p : Phase) (s : State) : Result :=
  match p with
  | .boundary => execBoundary s
  | .sync     => execSync s
  | .edgeRec  => execEdgeRec s
  | .edgeWait => execEdgeWait s
  | .decode   => execDecode s
  | .resolve  => execResolve s
  | .hold     => execHold s

/-- The operation fetched is that of the phase. -/
theorem exec_fetch (s : State) : exec (fetch s) s = execPhase s.phase s := by
  by_cases hp : s.phase = .boundary
  · rw [exec_fetch_boundary hp, hp]; rfl
  · rw [fetch_of_phase hp]
    cases hp' : s.phase with
    | boundary => exact absurd hp' hp
    | _ => rfl

/-- A step of a running core is the operation selected, and then the next sample. -/
theorem step_of_running {s : State} (hr : s.inp.rst = false) (hf : s.faulted = none) :
    step s = advanceOutcome (exec (fetch s) s) := by
  simp [step, hr, hf]

theorem step_of_rst {s : State} (hr : s.inp.rst = true) : step s = resetStep s := by
  simp [step, hr]

theorem step_of_faulted {s : State} {r : FaultReason} (hr : s.inp.rst = false) (hf : s.faulted = some r) :
    step s = .fault (.coreFaulted r) := by
  simp [step, hr, hf]

/-! ## The word fetched -/

/-- Without a command taken at BOUNDARY, the phase register is the word fetched. -/
theorem fetchWord_of_phase {s : State} (h : s.phase ≠ .boundary ∨ s.inp.cmd = none) :
    fetchWord s = .phase (phaseValue s.phase) := by
  unfold fetchWord
  split
  next hp hc => exact absurd hc (h.resolve_left (not_not.mpr hp) ▸ nofun)
  next => rfl

theorem fetch_of_decode {s : State} {i : Instr} (h : decode (fetchWord s) = .instr i) : fetch s = i := by
  rw [fetch, h]

theorem fetch_of_rejected {s : State} {e : DecodeError} (h : decode (fetchWord s) = .rejected e) :
    fetch s = .boundary := by
  rw [fetch, h]

/-- Settles O21: the branches of `step`, of the fetch and of `State.advance`, one rule each. -/
theorem stepRunsSelectedOperation : Obligations.StepRunsSelectedOperation := by
  refine ⟨fun s hr hf => ⟨step_of_running hr hf, fun _ => fetch_of_decode, fun _ => fetchWord_boundary_some,
    fetchWord_of_phase, fun w e hp hc he => ?_⟩, fun _ _ _ => State.advance_of_cons, fun _ => State.advance_of_nil⟩
  exact fetch_of_rejected (e := e) (by rw [fetchWord_boundary_some hp hc]; exact he)

/-! ## A word placed (log entry 9) -/

/-- Every 3-bit value but 7 is that of a phase. -/
theorem phaseOfValue_of_ne_seven :
    ∀ v : BitVec 3, v ≠ 7 → (phaseOfValue v).map phaseValue = some v := by decide

/-- A value that decodes is that of a phase. -/
theorem phase_of_decodePhase {v : BitVec 3} {i : Instr} (h : decodePhase v = .instr i) :
    ∃ p, phaseOfValue v = some p ∧ phaseValue p = v := by
  have hv : v ≠ 7 := by rintro rfl; exact absurd h (by simp [decodePhase])
  simpa using phaseOfValue_of_ne_seven v hv

/-- Placing a phase value selects that phase, with no command at BOUNDARY. -/
theorem place_phase {v : BitVec 3} {p : Phase} (h : phaseOfValue v = some p) (s : State) :
    (place (.phase v) s).phase = p ∧ (p = .boundary → (place (.phase v) s).inp.cmd = none) := by
  cases p <;> simp [place, h]

/-- A placed word that decodes is the word fetched. -/
theorem fetchWord_place {e : Encoded} {i : Instr} (h : decode e = .instr i) (s : State) :
    fetchWord (place e s) = e := by
  cases e with
  | command w => rfl
  | phase v =>
    obtain ⟨p, hp, hv⟩ := phase_of_decodePhase h
    obtain ⟨hphase, hcmd⟩ := place_phase hp s
    rw [fetchWord_of_phase, hphase, hv]
    rw [hphase]
    exact (em (p = .boundary)).symm.imp_right hcmd

/-- A core in which a decodable word is placed runs. -/
theorem place_running {e : Encoded} {i : Instr} (h : decode e = .instr i) (s : State) :
    (place e s).inp.rst = false ∧ (place e s).faulted = none := by
  cases e with
  | command w => exact ⟨rfl, rfl⟩
  | phase v =>
    obtain ⟨p, hp, -⟩ := phase_of_decodePhase h
    cases p <;> simp [place, hp]

/-- Settles O22: the core runs, and the word it fetches is the one placed. -/
theorem placedWordRuns : Obligations.PlacedWordRuns := by
  intro s e i h
  obtain ⟨hr, hf⟩ := place_running h s
  rw [step_of_running hr hf, fetch_of_decode (by rw [fetchWord_place h]; exact h)]

/-! ## Reads of elements that hold no value (10_state.md R36) -/

theorem execSync_of_no_time {s : State} (h : s.syncT0Ms = none) :
    execSync s = .next (faultedFrom s .unwrittenRead) := by
  rw [execSync, h, withValue_none]

theorem execEdgeWait_of_no_time {s : State} (h : s.edgeT0Us = none) :
    execEdgeWait s = .next (faultedFrom s .unwrittenRead) := by
  rw [execEdgeWait, h, withValue_none]

section
variable {s : State} {t0 : U32} (ht0 : s.edgeT0Us = some t0)
  (ht : timedOut s.inp.nowUs t0 s.cfg.pulseTimeoutUs = false)
include ht0 ht

theorem execEdgeWait_of_no_level (h : s.edgeLevel = none) :
    execEdgeWait s = .next (faultedFrom s .unwrittenRead) := by
  simp [execEdgeWait, ht0, ht, h]

/-- A level change with 100 entries or more has no index to append at (log entry 11). -/
theorem execEdgeWait_of_no_room {l : Bool} (hl : s.edgeLevel = some l) (hne : s.inp.line ≠ l)
    (hn : 100 ≤ s.pulseN) : execEdgeWait s = .fault .bufferIndex := by
  have hfull : ¬ s.pulseN < pulsesMax := Nat.not_lt.mpr hn
  simp [execEdgeWait, ht0, ht, hl, hne, appendStep, hfull]

end

theorem execDecode_of_unwritten {s : State} (h : necDecode (readPulse s) s.pulseN = .unwritten) :
    execDecode s = .next (faultedFrom s .unwrittenRead) := by
  rw [execDecode, h]; rfl

/-- A sequence long enough to be judged is unwritten when its first entry is. -/
theorem necDecode_of_no_first {rd : Nat → Option U32} {n : Nat} (hn : 66 ≤ n) (h : rd 0 = none) :
    necDecode rd n = .unwritten := by
  have hlong : ¬ n < pulsesMin := Nat.not_lt.mpr hn
  rw [necDecode, if_neg hlong, h]; rfl

/-- RESOLVE reads `code` while Idle, and while Listening before the deadline. -/
theorem execResolve_of_no_code {s : State} (hv : s.codeValid = true) (hc : s.code = none)
    (hl : ∀ n d, s.learn = .listening n d → expired s.inp.nowMs d = false) :
    execResolve s = .next (faultedFrom s .unwrittenRead) := by
  have hr : readCode s = none := by simp [readCode, hc]
  cases hlearn : s.learn with
  | idle => simp [execResolve, hlearn, hv, hr]
  | listening n d => simp [execResolve, hlearn, learnResolve, hl n d hlearn, hv, hr]

theorem execHold_of_no_time {s : State} (h : s.holdT0Ms = none) :
    execHold s = .next (faultedFrom s .unwrittenRead) := by
  rw [execHold, h, withValue_none]

theorem execHold_of_no_name {s : State} {t0 : U32} (ht0 : s.holdT0Ms = some t0)
    (ht : timedOut s.inp.nowMs t0 assertMs = true) (h : s.holdName = none) :
    execHold s = .next (faultedFrom s .unwrittenRead) := by
  simp [execHold, ht0, ht, h]

/-- Settles O20: the rule of each read above, clause by clause. -/
theorem readsWithoutValueRaise : Obligations.ReadsWithoutValueRaise := fun s =>
  ⟨execSync_of_no_time, execEdgeWait_of_no_time, fun _ => execEdgeWait_of_no_level,
    fun _ _ ht0 ht => execEdgeWait_of_no_room ht0 ht,
    fun hn h => execDecode_of_unwritten (necDecode_of_no_first hn h),
    fun hi hv hc => execResolve_of_no_code hv hc (by simp [hi]),
    fun n d hl he hv hc => execResolve_of_no_code hv hc (by rintro n' d' h'; cases hl.symm.trans h'; exact he),
    execHold_of_no_time, fun _ => execHold_of_no_name⟩

/-! ## The frame of RESOLVE -/

/-- Settles O44: each way RESOLVE answers writes only the table, the learning state, the lines, the hold registers, `phase`
and the fault. -/
theorem resolveFrame : Obligations.ResolveFrame := by
  intro s t h
  obtain ⟨-, -, rfl⟩ | ⟨_, _, _, -, -, -, -, -, rfl⟩ | ⟨_, _, -, -, rfl⟩ | ⟨_, _, _, _, -, -, -, -, -, rfl⟩ |
    ⟨-, -, rfl⟩ | ⟨_, -, -, -, -, rfl⟩ | ⟨_, _, -, -, -, -, -, rfl⟩ := execResolve_cases h
  all_goals exact ⟨⟨rfl, rfl, rfl, rfl⟩, rfl, ⟨rfl, rfl⟩, ⟨rfl, rfl⟩, ⟨rfl, rfl⟩⟩

/-! ## The inputs each phase reads (10_state.md R40, R42, R45) -/

/-- The same state about to read other inputs. -/
def State.withInp (x : Sample) (s : State) : State := { s with inp := x }

section withInp
variable (s : State) (x : Sample)
@[simp] theorem State.withInp_cfg : (s.withInp x).cfg = s.cfg := rfl
@[simp] theorem State.withInp_inp : (s.withInp x).inp = x := rfl
@[simp] theorem State.withInp_queue : (s.withInp x).queue = s.queue := rfl
@[simp] theorem State.withInp_draws : (s.withInp x).draws = s.draws := rfl
@[simp] theorem State.withInp_phase : (s.withInp x).phase = s.phase := rfl
@[simp] theorem State.withInp_pulseN : (s.withInp x).pulseN = s.pulseN := rfl
@[simp] theorem State.withInp_codeValid : (s.withInp x).codeValid = s.codeValid := rfl
@[simp] theorem State.withInp_table : (s.withInp x).table = s.table := rfl
@[simp] theorem State.withInp_learn : (s.withInp x).learn = s.learn := rfl
@[simp] theorem readCode_withInp : readCode (s.withInp x) = readCode s := rfl
@[simp] theorem readPulse_withInp : readPulse (s.withInp x) = readPulse s := rfl
end withInp

/-- An outcome with other inputs in its next state. -/
def resultWithInp (x : Sample) : Result → Result
  | .next s    => .next (s.withInp x)
  | .fault r   => .fault r
  | .refused r => .refused r

/-- The next sample replaces the inputs, whichever they were. -/
theorem advanceOutcome_withInp (x : Sample) (r : Result) : advanceOutcome (resultWithInp x r) = advanceOutcome r := by
  cases r with
  | next s => exact congrArg Host.Outcome.next (s.advance_of_inp x)
  | fault | refused => rfl

theorem resetStep_withInp (s : State) (x : Sample) : resetStep (s.withInp x) = resetStep s := by
  have hreset : (State.resetWith s.cfg x s.queue s.draws).advance =
      (State.resetWith s.cfg s.inp s.queue s.draws).advance :=
    (State.resetWith s.cfg s.inp s.queue s.draws).advance_of_inp x
  simp [resetStep, hreset]

theorem withValue_withInp {α : Type} {v : Option α} {s : State} {x : Sample} {k k' : α → Result}
    (hk : ∀ a, k' a = resultWithInp x (k a)) : withValue v (s.withInp x) k' = resultWithInp x (withValue v s k) := by
  cases v with
  | none => rfl
  | some a => exact hk a

/-- `x` and `y` agree in every input that a step at phase `p` reads. -/
structure AgreeAt (p : Phase) (x y : Sample) : Prop where
  rst   : x.rst = y.rst
  line  : p = .sync ∨ p = .edgeRec ∨ p = .edgeWait → x.line = y.line
  nowUs : p = .edgeRec ∨ p = .edgeWait → x.nowUs = y.nowUs
  nowMs : p = .boundary ∨ p = .sync ∨ p = .resolve ∨ p = .hold → x.nowMs = y.nowMs
  cmd   : p = .boundary → x.cmd = y.cmd

section
variable {s : State} {x : Sample}

theorem boundaryStep_withInp (l : Learn) (r : Option Response) (es : List Event) (hms : x.nowMs = s.inp.nowMs) :
    boundaryStep l r es (s.withInp x) = (boundaryStep l r es s).withInp x := by
  simp only [boundaryStep, State.withInp_inp, hms]; rfl

theorem decodedStep_withInp (d : Decoded) (hms : x.nowMs = s.inp.nowMs) :
    decodedStep d (s.withInp x) = (decodedStep d s).withInp x := by
  rcases d with (⟨n, t⟩ | _) | _
  · have hl : armLearn n t (s.withInp x) = armLearn n t s := by simp [armLearn, hms]
    change boundaryStep (armLearn n t (s.withInp x)) _ _ _ = _
    rw [hl, boundaryStep_withInp _ _ _ hms]; rfl
  all_goals exact boundaryStep_withInp _ _ _ hms

theorem execBoundary_withInp (h : AgreeAt .boundary x s.inp) :
    execBoundary (s.withInp x) = resultWithInp x (execBoundary s) := by
  have hms := h.nowMs (.inl rfl)
  refine congrArg Host.Outcome.next ?_
  cases hc : s.inp.cmd with
  | none => simpa [boundaryTake, h.cmd rfl, hc] using boundaryStep_withInp _ _ _ hms
  | some w => simpa [boundaryTake, h.cmd rfl, hc] using decodedStep_withInp _ hms

theorem execSync_withInp (h : AgreeAt .sync x s.inp) :
    execSync (s.withInp x) = resultWithInp x (execSync s) := by
  refine withValue_withInp fun t0 => ?_
  simp only [syncNext, State.withInp_inp, h.nowMs (.inr (.inl rfl)), h.line (.inl rfl)]; rfl

theorem execEdgeRec_withInp (h : AgreeAt .edgeRec x s.inp) :
    execEdgeRec (s.withInp x) = resultWithInp x (execEdgeRec s) := by
  simp only [execEdgeRec, State.withInp_inp, h.line (.inr (.inl rfl)), h.nowUs (.inl rfl)]; rfl

theorem appendStep_withInp (d : U32) : appendStep d (s.withInp x) = resultWithInp x (appendStep d s) := by
  by_cases hn : s.pulseN < pulsesMax <;> simp only [appendStep, State.withInp_pulseN, hn, if_true, if_false] <;> rfl

theorem execEdgeWait_withInp (h : AgreeAt .edgeWait x s.inp) :
    execEdgeWait (s.withInp x) = resultWithInp x (execEdgeWait s) := by
  refine withValue_withInp fun t0 => ?_
  simp only [State.withInp_inp, State.withInp_cfg, h.line (.inr (.inr rfl)), h.nowUs (.inr rfl)]
  split
  · rfl
  · refine withValue_withInp fun level => ?_
    split
    · exact appendStep_withInp _
    · rfl

theorem execDecode_withInp : execDecode (s.withInp x) = resultWithInp x (execDecode s) := by
  simp only [execDecode, readPulse_withInp, State.withInp_pulseN]
  cases necDecode (readPulse s) s.pulseN <;> rfl

theorem learnBind_withInp (target : ActionName) (c : Code) :
    learnBind target c (s.withInp x) = resultWithInp x (learnBind target c s) := by
  simp only [learnBind, State.withInp_cfg, State.withInp_table]; split <;> rfl

theorem dispatchCode_withInp (c : Code) (hms : x.nowMs = s.inp.nowMs) :
    dispatchCode c (s.withInp x) = resultWithInp x (dispatchCode c s) := by
  simp only [dispatchCode, dispatchKnown, State.withInp_table, State.withInp_inp, hms]
  split
  · split <;> rfl
  · rfl

theorem execResolve_withInp (h : AgreeAt .resolve x s.inp) :
    execResolve (s.withInp x) = resultWithInp x (execResolve s) := by
  have hms := h.nowMs (.inr (.inr (.inl rfl)))
  cases hl : s.learn with
  | idle =>
    cases hv : s.codeValid with
    | true => simpa [execResolve, hl, hv] using withValue_withInp fun c => dispatchCode_withInp c hms
    | false => simp [execResolve, hl, hv]; rfl
  | listening target d =>
    cases he : expired s.inp.nowMs d with
    | true => simp [execResolve, hl, learnResolve, hms, he]; rfl
    | false =>
      cases hv : s.codeValid with
      | true =>
        simpa [execResolve, hl, learnResolve, hms, he, hv] using
          withValue_withInp fun c => learnBind_withInp target c
      | false => simp [execResolve, hl, learnResolve, hms, he, hv]; rfl

theorem execHold_withInp (h : AgreeAt .hold x s.inp) :
    execHold (s.withInp x) = resultWithInp x (execHold s) := by
  refine withValue_withInp fun t0 => ?_
  simp only [State.withInp_inp, h.nowMs (.inr (.inr (.inr rfl)))]
  split
  · exact withValue_withInp fun n => rfl
  · rfl

/-- An operation depends on no input but those its phase reads. -/
theorem execPhase_withInp {p : Phase} (h : AgreeAt p x s.inp) :
    execPhase p (s.withInp x) = resultWithInp x (execPhase p s) := by
  cases p with
  | boundary => exact execBoundary_withInp h
  | sync     => exact execSync_withInp h
  | edgeRec  => exact execEdgeRec_withInp h
  | edgeWait => exact execEdgeWait_withInp h
  | decode   => exact execDecode_withInp
  | resolve  => exact execResolve_withInp h
  | hold     => exact execHold_withInp h

/-- A step depends on no input but those its phase reads. -/
theorem step_withInp (h : AgreeAt s.phase x s.inp) : step (s.withInp x) = step s := by
  cases hr : s.inp.rst with
  | true => rw [step_of_rst hr, step_of_rst (s := s.withInp x) (h.rst.trans hr), resetStep_withInp]
  | false =>
    cases hf : s.faulted with
    | some r => rw [step_of_faulted hr hf, step_of_faulted (s := s.withInp x) (h.rst.trans hr) hf]
    | none =>
      rw [step_of_running hr hf, step_of_running (s := s.withInp x) (h.rst.trans hr) hf, exec_fetch, exec_fetch,
        State.withInp_phase, execPhase_withInp h, advanceOutcome_withInp]

end

/-- Settles O51: outside BOUNDARY two samples that differ in the command alone agree. -/
theorem commandReadOnlyAtBoundary : Obligations.CommandReadOnlyAtBoundary := fun _ _ hp =>
  step_withInp ⟨rfl, fun _ => rfl, fun _ => rfl, fun _ => rfl, fun h => absurd h hp⟩

/-- Settles O52: the same for the line and for each clock, in the phases that do not read it. -/
theorem lineAndClocksReadByTheirPhases : Obligations.LineAndClocksReadByTheirPhases := by
  refine ⟨fun s line hs hr hw => step_withInp ?_, fun s us hr hw => step_withInp ?_,
    fun s ms hb hs hr hh => step_withInp ?_⟩
  · exact ⟨rfl, fun h => absurd h (by simp [hs, hr, hw]), fun _ => rfl, fun _ => rfl, fun _ => rfl⟩
  · exact ⟨rfl, fun _ => rfl, fun h => absurd h (by simp [hr, hw]), fun _ => rfl, fun _ => rfl⟩
  · exact ⟨rfl, fun _ => rfl, fun _ => rfl, fun h => absurd h (by simp [hb, hs, hr, hh]), fun _ => rfl⟩

end Sys2Proof.Machine
end

section

/-! # Waits on a clock that meets the premises P1 to P3 (10_state.md R44) -/

namespace Sys2Proof.Machine

/-- A wait has ended once the elapsed time, as an integer, has reached the limit. -/
theorem timedOut_iff {now start limit : U32} :
    timedOut now start limit = true ↔ limit.toNat ≤ (udiff32 now start).toNat := by
  rw [timedOut, decide_eq_true_iff, BitVec.le_def]

section
variable {real : Nat → Nat} {sample : Nat → U32} (h : ClockPremises real sample)
include h

/-- P2: real time never runs back. -/
theorem ClockPremises.monotone : Monotone real :=
  monotone_nat_of_le_succ fun k => (h.spacing k).1

/-- P1: an elapsed real time below 2^32 is the one the samples show. -/
theorem ClockPremises.udiff32_toNat {j k : Nat} (hjk : j ≤ k) (hlt : real k - real j < 2 ^ 32) :
    (udiff32 (sample k) (sample j)).toNat = real k - real j := by
  rw [h.wraparound k, h.wraparound j, udiff32_ofNat_toNat (h.monotone hjk) hlt]

/-- P2 and P3: the first sample at or after `limit` units from sample `j` comes less than 2^31 units late. -/
theorem ClockPremises.exists_first_reaching (j limit : Nat) :
    ∃ k, j ≤ k ∧ real j + limit ≤ real k ∧ real k < real j + limit + 2 ^ 31 := by
  classical
  have hex : ∃ n, real j + limit ≤ real (j + n) := by
    obtain ⟨k, hk⟩ := h.progress (real j + limit)
    exact ⟨k, hk.trans (h.monotone (Nat.le_add_left k j))⟩
  refine ⟨j + Nat.find hex, Nat.le_add_right _ _, Nat.find_spec hex, ?_⟩
  cases hn : Nat.find hex with
  | zero => rw [Nat.add_zero]; omega
  | succ n =>
    have hbefore : ¬ real j + limit ≤ real (j + n) := Nat.find_min hex (by omega)
    have hspacing := h.spacing (j + n)
    rw [← Nat.add_assoc]
    omega

end

/-- Settles O13: the first sample at or after the limit comes before the elapsed time wraps, so the samples show it. -/
theorem clockPremisesEndEveryWait : Obligations.ClockPremisesEndEveryWait := by
  intro real sample h j limit hlimit
  obtain ⟨k, hjk, hreached, hsoon⟩ := h.exists_first_reaching j limit.toNat
  refine ⟨k, hjk, ?_⟩
  rw [timedOut_iff, h.udiff32_toNat hjk (by omega)]
  omega

end Sys2Proof.Machine
end

section

/-! # The invariant of the machine (10_state.md R25, R36; 45_cycle.md R206, R208) -/

namespace Sys2Proof.Machine

/-! ## The two halves of the invariant -/

/-- The clauses of `Inv` that ask the same in every phase. -/
structure DataInv (s : State) : Prop where
  cfgOk     : s.cfg.wellFormed = true
  tableOk   : tableWellFormed s.cfg.tableCapacity s.table = true
  seedKept  : s.cfg.seedTable.map Entry.key <+: s.table.map Entry.key
  learnOk   : ∀ target deadline, s.learn = .listening target deadline → isKnown target = true
  pulsesOk  : s.pulseN ≤ 100
  entriesOk : ∀ k, k < s.pulseN → ∃ d, s.buf[k]? = some (some d) ∧ d < s.cfg.pulseTimeoutUs
  codeOk    : s.codeValid = s.code.isSome
  faultOk   : s.faulted = none ∨ (s.faulted = some .tableFull ∧ s.cfg.tableCapacity ≠ none)

/-- What `Inv` asks of the state in one phase. -/
def PhaseInv (p : Phase) (s : State) : Prop :=
  match p with
  | .boundary => s.out = .allLow
  | .sync     => s.out = .allLow ∧ s.codeValid = false ∧ s.pulseN = 0 ∧ s.syncT0Ms.isSome = true
  | .edgeRec  => s.out = .allLow ∧ s.codeValid = false ∧ s.pulseN ≤ 99
  | .edgeWait => s.out = .allLow ∧ s.codeValid = false ∧ s.pulseN ≤ 99 ∧
                   s.edgeT0Us.isSome = true ∧ s.edgeLevel.isSome = true
  | .decode   => s.out = .allLow ∧ s.codeValid = false
  | .resolve  => s.out = .allLow
  | .hold     => ∃ n, s.holdName = some n ∧ s.holdT0Ms.isSome = true ∧ isKnown n = true ∧
                   s.out = outSet .allLow n true

theorem Inv.dataInv {s : State} (h : Inv s) : DataInv s := { h with }

theorem Inv.phaseInv {s : State} (h : Inv s) : PhaseInv s.phase s := by
  have hrest := h.restOk
  have hclear := h.codeClear
  cases hp : s.phase with
  | boundary => exact hrest (by simp [hp])
  | sync     => exact ⟨hrest (by simp [hp]), hclear (by simp [hp]), h.syncOk hp⟩
  | edgeRec  => exact ⟨hrest (by simp [hp]), hclear (by simp [hp]), h.pulsesRoom (.inl hp)⟩
  | edgeWait => exact ⟨hrest (by simp [hp]), hclear (by simp [hp]), h.pulsesRoom (.inr hp), h.edgeOk hp⟩
  | decode   => exact ⟨hrest (by simp [hp]), hclear (by simp [hp])⟩
  | resolve  => exact hrest (by simp [hp])
  | hold     => exact h.holdOk hp

/-- The two halves make the invariant. -/
theorem DataInv.inv {s : State} (h : DataInv s) (hp : PhaseInv s.phase s) : Inv s := by
  have at_phase : ∀ {p}, s.phase = p → PhaseInv p s := fun hphase => hphase ▸ hp
  refine { h with
    pulsesRoom := ?pulsesRoom, syncOk := ?syncOk, edgeOk := ?edgeOk, codeClear := ?codeClear
    holdOk := at_phase, restOk := ?restOk }
  case pulsesRoom =>
    rintro (hphase | hphase)
    · obtain ⟨-, -, hroom⟩ := at_phase hphase; exact hroom
    · obtain ⟨-, -, hroom, -⟩ := at_phase hphase; exact hroom
  case syncOk => intro hphase; obtain ⟨-, -, hsync⟩ := at_phase hphase; exact hsync
  case edgeOk => intro hphase; obtain ⟨-, -, -, hedge⟩ := at_phase hphase; exact hedge
  case codeClear =>
    rintro (hphase | hphase | hphase | hphase)
    · obtain ⟨-, hcode, -⟩ := at_phase hphase; exact hcode
    · obtain ⟨-, hcode, -⟩ := at_phase hphase; exact hcode
    · obtain ⟨-, hcode, -⟩ := at_phase hphase; exact hcode
    · obtain ⟨-, hcode⟩ := at_phase hphase; exact hcode
  case restOk =>
    intro hne
    cases hphase : s.phase with
    | boundary | resolve => exact at_phase hphase
    | sync | edgeRec | edgeWait | decode => exact (at_phase hphase).1
    | hold => exact absurd hphase hne

/-! ## The updates that keep it -/

/-- `Inv` reads neither the samples nor the ports. -/
theorem Inv.drive {s : State} (h : Inv s) (r : Option Response) (es : List Event) : Inv (s.drive r es) := { h with }

theorem Inv.advance {s : State} (h : Inv s) : Inv s.advance := by
  unfold State.advance
  split <;> exact { h with }

theorem DataInv.goto {s : State} (h : DataInv s) (p : Phase) (hp : PhaseInv p s) : Inv (s.goto p) :=
  DataInv.inv { h with } (by cases p <;> exact hp)

theorem DataInv.recordEdge {s : State} (h : DataInv s) (level : Bool) (t : U32) : DataInv (s.recordEdge level t) :=
  { h with }

theorem DataInv.assertLine {s : State} (h : DataInv s) (n : ActionName) (t : U32) : DataInv (s.assertLine n t) :=
  { h with }

theorem DataInv.deassertLine {s : State} (h : DataInv s) (n : ActionName) : DataInv (s.deassertLine n) := { h with }

theorem DataInv.setVerdict {s : State} (h : DataInv s) (c : Option Code) : DataInv (s.setVerdict c) :=
  { h with codeOk := rfl }

theorem DataInv.setLearn {s : State} (h : DataInv s) {l : Learn}
    (hl : ∀ target deadline, l = .listening target deadline → isKnown target = true) : DataInv (s.setLearn l) :=
  { h with learnOk := hl }

theorem DataInv.setLearn_idle {s : State} (h : DataInv s) : DataInv (s.setLearn .idle) := h.setLearn nofun

theorem isKnown_iff {n : ActionName} : isKnown n = true ↔ n ≠ .unknown := by
  cases n <;> decide

/-- A bind of a known name keeps the data's form and the seed's keys in front. -/
theorem DataInv.setTable {s : State} (h : DataInv s) {c : Code} {n : ActionName} {u : List Entry}
    (hn : isKnown n = true) (hu : tableBind s.cfg.tableCapacity c n s.table = some u) : DataInv (s.setTable u) :=
  { h with
    tableOk  := tableBind_wellFormed h.tableOk (isKnown_iff.mp hn) hu
    seedKept := h.seedKept.trans (tableBind_keys hu) }

/-- The entry appended is the only new one, and it is below the pulse timeout. -/
theorem DataInv.appendPulse {s : State} (h : DataInv s) {d : U32} (hroom : s.pulseN < 100)
    (hd : d < s.cfg.pulseTimeoutUs) : DataInv (s.appendPulse d) := by
  refine { h with pulsesOk := hroom, entriesOk := fun k hk => ?_ }
  rw [State.appendPulse_buf, Vector.getElem?_setIfInBounds]
  obtain hlt | rfl : k < s.pulseN ∨ s.pulseN = k := by
    rw [State.appendPulse_pulseN] at hk; omega
  · rw [if_neg (by omega)]; exact h.entriesOk k hlt
  · exact ⟨d, by simp [hroom], hd⟩

/-- Starting a cycle empties the sequence and the code, and starts the idle wait. -/
theorem DataInv.startCycle {s : State} (h : DataInv s) (hout : s.out = .allLow) (now : U32) :
    Inv (s.startCycle now) := by
  have hdata : DataInv (s.startCycle now) :=
    { h with
      pulsesOk  := Nat.zero_le _
      entriesOk := fun k hk => absurd hk (Nat.not_lt_zero k)
      codeOk    := rfl }
  exact hdata.inv ⟨hout, rfl, rfl, rfl⟩

/-- Raising TableFull with a finite capacity keeps the invariant. -/
theorem Inv.faultedFrom_tableFull {s : State} (h : Inv s) (hcap : s.cfg.tableCapacity ≠ none) :
    Inv (faultedFrom s .tableFull) :=
  { h with faultOk := .inr ⟨rfl, hcap⟩ }

/-- The reset state of a well-formed configuration meets the invariant. -/
theorem inv_resetWith {p : Params} (h : p.wellFormed = true) (x : Sample) (q : List Sample) (d : Nat) :
    Inv (State.resetWith p x q d) := by
  have hdata : DataInv (State.resetWith p x q d) :=
    { cfgOk     := h
      tableOk   := h
      seedKept  := ⟨[], List.append_nil _⟩
      learnOk   := nofun
      pulsesOk  := Nat.zero_le _
      entriesOk := fun k hk => absurd hk (Nat.not_lt_zero k)
      codeOk    := rfl
      faultOk   := .inl rfl }
  exact hdata.inv rfl

/-! ## What the invariant rules out -/

/-- Under the invariant every captured entry can be read. -/
theorem DataInv.readPulse_ne_none {s : State} (h : DataInv s) {k : Nat} (hk : k < s.pulseN) : readPulse s k ≠ none := by
  obtain ⟨d, hd, -⟩ := h.entriesOk k hk
  simp [readPulse, hk, hd]

theorem necBits_ne_unwritten {rd : Nat → Option U32} {m : Nat} (h : ∀ i, i < m → rd (3 + 2 * i) ≠ none) :
    necBits rd m ≠ .unwritten := by
  induction m with
  | zero => exact nofun
  | succ i ih =>
    have ih := ih fun j hj => h j (Nat.lt_succ_of_lt hj)
    obtain ⟨v, hv⟩ := Option.ne_none_iff_exists'.mp (h i (Nat.lt_succ_self i))
    cases hb : necBits rd i with
    | unwritten => exact absurd hb ih
    | reject => simp [necBits, hb]
    | accept w => cases hc : classify v <;> simp [necBits, hb, hv, hc]

theorem necHeader_ne_unwritten {v : Option U32} {lo hi : U32} {rest : Verdict} (hv : v ≠ none)
    (hrest : rest ≠ .unwritten) : necHeader v lo hi rest ≠ .unwritten := by
  obtain ⟨d, rfl⟩ := Option.ne_none_iff_exists'.mp hv
  change (if inOpen d lo hi then rest else .reject) ≠ Verdict.unwritten
  split_ifs
  · exact hrest
  · exact nofun

/-- The decoder examines only entries below the count. -/
theorem necDecode_ne_unwritten {rd : Nat → Option U32} {n : Nat} (h : ∀ k, k < n → rd k ≠ none) :
    necDecode rd n ≠ .unwritten := by
  unfold necDecode
  split_ifs with hn
  · exact nofun
  · rw [pulsesMin] at hn
    exact necHeader_ne_unwritten (h 0 (by omega)) <| necHeader_ne_unwritten (h 1 (by omega)) <|
      necBits_ne_unwritten fun i hi => h _ (by omega)

/-- Only a finite table refuses a bind. -/
theorem capacity_ne_none_of_tableBind {cap : Option Nat} {c : Code} {n : ActionName} {t : List Entry}
    (h : tableBind cap c n t = none) : cap ≠ none := by
  rintro rfl
  unfold tableBind at h
  split_ifs at h with hkey hfull
  exact Bool.false_ne_true hfull

/-- A wait that goes on has not reached its limit. -/
theorem udiff32_lt_of_timedOut {now start limit : U32} (h : timedOut now start limit = false) :
    udiff32 now start < limit :=
  BitVec.not_le.mp (of_decide_eq_false h)

/-- The target of a session ARM starts is a known name. -/
theorem isKnown_nameOfCode {v : U8} (h : isKnownCode v = true) : isKnown (nameOfCode v) = true := by
  revert v; decide

/-- Deasserting the one line asserted leaves none. -/
theorem outSet_allLow_deassert (n : ActionName) : outSet (outSet .allLow n true) n false = .allLow := by
  cases n <;> rfl

/-! ## Every operation keeps it -/

section
variable {s t : State} (hinv : Inv s)
include hinv

theorem boundaryTake_inv (hp : s.phase = .boundary) : Inv (boundaryTake s) := by
  have hout : s.out = .allLow := hinv.restOk (by simp [hp])
  obtain ⟨l, r, es, heq, -, -, hl⟩ := boundaryTake_eq s
  have hlearn : ∀ target deadline, l = .listening target deadline → isKnown target = true := by
    rintro target deadline rfl
    obtain hsame | ⟨-, _, n, _, -, -, hknown, -, harmed⟩ := hl
    · exact hinv.learnOk _ _ hsame.symm
    · cases harmed; exact isKnown_nameOfCode hknown
  exact heq ▸ ((hinv.dataInv.setLearn hlearn).startCycle hout _).drive r es

theorem execSync_inv (hp : s.phase = .sync) (h : execSync s = .next t) : Inv t := by
  obtain ⟨hout, hcode, hempty, htime⟩ : PhaseInv .sync s := hp ▸ hinv.phaseInv
  obtain ⟨hnone, -⟩ | ⟨t0, -, rfl⟩ := execSync_cases h
  · simp [hnone] at htime
  · refine (hinv.dataInv.goto _ ?_).drive _ _
    unfold syncNext
    split_ifs
    · exact ⟨hout, hcode⟩
    · exact ⟨hout, hcode, by omega⟩
    · exact ⟨hout, hcode, hempty, htime⟩

theorem execEdgeRec_inv (hp : s.phase = .edgeRec) (h : execEdgeRec s = .next t) : Inv t := by
  obtain ⟨hout, hcode, hroom⟩ : PhaseInv .edgeRec s := hp ▸ hinv.phaseInv
  cases h
  exact ((hinv.dataInv.recordEdge _ _).goto .edgeWait ⟨hout, hcode, hroom, rfl, rfl⟩).drive _ _

theorem execEdgeWait_inv (hp : s.phase = .edgeWait) (h : execEdgeWait s = .next t) : Inv t := by
  obtain ⟨hout, hcode, hroom, htime, hlevel⟩ : PhaseInv .edgeWait s := hp ▸ hinv.phaseInv
  obtain ⟨-, hnone | hnone⟩ | ⟨t0, -, ⟨-, rfl⟩ | ⟨hrunning, level, -, ⟨-, hlt, rfl⟩ | ⟨-, rfl⟩⟩⟩ :=
    execEdgeWait_cases h
  · simp [hnone] at htime
  · simp [hnone] at hlevel
  · exact (hinv.dataInv.goto .decode ⟨hout, hcode⟩).drive _ _
  · refine ((hinv.dataInv.appendPulse hlt (udiff32_lt_of_timedOut hrunning)).goto _ ?_).drive _ _
    split_ifs with hfull
    · exact ⟨hout, hcode⟩
    · exact ⟨hout, hcode, by rw [State.appendPulse_pulseN]; omega⟩
  · exact (hinv.dataInv.goto .edgeWait ⟨hout, hcode, hroom, htime, hlevel⟩).drive _ _

theorem execDecode_inv (hp : s.phase = .decode) (h : execDecode s = .next t) : Inv t := by
  have hout : s.out = .allLow := hinv.restOk (by simp [hp])
  obtain ⟨hunwritten, -⟩ | ⟨c, rfl⟩ := execDecode_cases h
  · exact absurd hunwritten (necDecode_ne_unwritten fun _ => hinv.dataInv.readPulse_ne_none)
  · exact ((hinv.dataInv.setVerdict c).goto .resolve hout).drive _ _

theorem execResolve_inv (hp : s.phase = .resolve) (h : execResolve s = .next t) : Inv t := by
  have hout : s.out = .allLow := hinv.restOk (by simp [hp])
  have hdata := hinv.dataInv
  obtain ⟨hvalid, hnone, -⟩ | ⟨_, _, _, -, -, -, -, hfull, rfl⟩ | ⟨_, _, -, -, rfl⟩ |
    ⟨target, d, c, u, hl, -, -, -, hbind, rfl⟩ | ⟨-, -, rfl⟩ | ⟨_, -, -, -, -, rfl⟩ |
    ⟨c, n, -, -, -, -, hknown, rfl⟩ := execResolve_cases h
  · simp [hdata.codeOk, hnone] at hvalid
  · exact hinv.faultedFrom_tableFull (capacity_ne_none_of_tableBind hfull)
  · exact (hdata.setLearn_idle.goto .boundary hout).drive _ _
  · exact ((hdata.setTable (hinv.learnOk target d hl) hbind).setLearn_idle.goto .boundary hout).drive _ _
  · exact (hdata.goto .boundary hout).drive _ _
  · exact (hdata.goto .boundary hout).drive _ _
  · have hline : (s.assertLine n s.inp.nowMs).out = outSet .allLow n true := by rw [State.assertLine_out, hout]
    exact ((hdata.assertLine n _).goto .hold ⟨n, rfl, rfl, hknown, hline⟩).drive _ _

theorem execHold_inv (hp : s.phase = .hold) (h : execHold s = .next t) : Inv t := by
  obtain ⟨n, hname, htime, hknown, hout⟩ : PhaseInv .hold s := hp ▸ hinv.phaseInv
  obtain ⟨-, hnone | hnone⟩ | ⟨_, -, ⟨-, m, hm, rfl⟩ | ⟨-, rfl⟩⟩ := execHold_cases h
  · simp [hnone] at htime
  · simp [hnone] at hname
  · obtain rfl : m = n := by simpa [hname] using hm.symm
    have hlow : (s.deassertLine m).out = .allLow := by
      rw [State.deassertLine_out, hout, outSet_allLow_deassert]
    exact ((hinv.dataInv.deassertLine m).goto .boundary hlow).drive _ _
  · exact (hinv.dataInv.goto .hold ⟨n, hname, htime, hknown, hout⟩).drive _ _

/-- The operation of the phase keeps the invariant. -/
theorem execPhase_inv (h : execPhase s.phase s = .next t) : Inv t := by
  cases hp : s.phase <;> rw [hp] at h
  case boundary => cases h; exact boundaryTake_inv hinv hp
  case sync => exact execSync_inv hinv hp h
  case edgeRec => exact execEdgeRec_inv hinv hp h
  case edgeWait => exact execEdgeWait_inv hinv hp h
  case decode => exact execDecode_inv hinv hp h
  case resolve => exact execResolve_inv hinv hp h
  case hold => exact execHold_inv hinv hp h

end

/-- Settles O55: a reset step starts from a well-formed configuration, and each phase's operation keeps the invariant. -/
theorem stepKeepsInvariant : Obligations.StepKeepsInvariant := by
  intro s t hinv h
  obtain ⟨-, hcfg, rfl⟩ | ⟨-, -, u, hu, rfl⟩ := step_cases h
  · exact (inv_resetWith hcfg _ _ _).advance
  · rw [exec_fetch] at hu
    exact (execPhase_inv hinv hu).advance

/-! ## A running core steps -/

/-- A read answers if what follows it does, for it raises a fault otherwise. -/
theorem withValue_answers {α : Type} {v : Option α} {s : State} {k : α → Result} (hk : ∀ a, ∃ t, k a = .next t) :
    ∃ t, withValue v s k = .next t := by
  cases v with
  | none => exact ⟨_, rfl⟩
  | some a => exact hk a

theorem execSync_answers (s : State) : ∃ t, execSync s = .next t := withValue_answers fun _ => ⟨_, rfl⟩

theorem execEdgeWait_answers {s : State} (hn : s.pulseN < 100) : ∃ t, execEdgeWait s = .next t := by
  refine withValue_answers fun t0 => ?_
  split_ifs
  · exact ⟨_, rfl⟩
  · refine withValue_answers fun level => ?_
    split_ifs
    · exact ⟨_, if_pos hn⟩
    · exact ⟨_, rfl⟩

theorem execDecode_answers (s : State) : ∃ t, execDecode s = .next t := by
  unfold execDecode
  cases necDecode (readPulse s) s.pulseN <;> exact ⟨_, rfl⟩

theorem learnBind_answers (target : ActionName) (c : Code) (s : State) : ∃ t, learnBind target c s = .next t := by
  unfold learnBind
  split <;> exact ⟨_, rfl⟩

theorem dispatchCode_answers (c : Code) (s : State) : ∃ t, dispatchCode c s = .next t := by
  unfold dispatchCode
  split
  · split_ifs <;> exact ⟨_, rfl⟩
  · exact ⟨_, rfl⟩

theorem execResolve_answers (s : State) : ∃ t, execResolve s = .next t := by
  unfold execResolve
  split
  next target d _ =>
    unfold learnResolve
    split_ifs
    · exact ⟨_, rfl⟩
    · exact withValue_answers fun c => learnBind_answers target c s
    · exact ⟨_, rfl⟩
  next =>
    split_ifs
    · exact withValue_answers fun c => dispatchCode_answers c s
    · exact ⟨_, rfl⟩

theorem execHold_answers (s : State) : ∃ t, execHold s = .next t := by
  refine withValue_answers fun t0 => ?_
  split_ifs
  · exact withValue_answers fun n => ⟨_, rfl⟩
  · exact ⟨_, rfl⟩

/-- Every operation answers a next state, but for an EDGE_WAIT without room for one more entry. -/
theorem execPhase_answers {p : Phase} {s : State} (hroom : p = .edgeWait → s.pulseN < 100) :
    ∃ t, execPhase p s = .next t := by
  cases p with
  | boundary => exact ⟨_, rfl⟩
  | sync     => exact execSync_answers s
  | edgeRec  => exact ⟨_, rfl⟩
  | edgeWait => exact execEdgeWait_answers (hroom rfl)
  | decode   => exact execDecode_answers s
  | resolve  => exact execResolve_answers s
  | hold     => exact execHold_answers s

/-- No operation writes the parameters. -/
theorem execPhase_cfg {p : Phase} {s t : State} (h : execPhase p s = .next t) : t.cfg = s.cfg := by
  cases p with
  | boundary =>
    obtain ⟨l, r, es, heq, -⟩ := boundaryTake_eq s
    cases h; rw [heq]; rfl
  | sync => obtain ⟨-, rfl⟩ | ⟨_, -, rfl⟩ := execSync_cases h <;> rfl
  | edgeRec => cases h; rfl
  | edgeWait =>
    obtain ⟨rfl, -⟩ | ⟨_, -, ⟨-, rfl⟩ | ⟨-, _, -, ⟨-, -, rfl⟩ | ⟨-, rfl⟩⟩⟩ := execEdgeWait_cases h <;> rfl
  | decode => obtain ⟨-, rfl⟩ | ⟨_, rfl⟩ := execDecode_cases h <;> rfl
  | resolve => obtain ⟨⟨hcfg, -⟩, -⟩ := resolveFrame s t h; exact hcfg
  | hold => obtain ⟨rfl, -⟩ | ⟨_, -, ⟨-, _, -, rfl⟩ | ⟨-, rfl⟩⟩ := execHold_cases h <;> rfl

/-- Settles O57: the operation answers because EDGE_WAIT has room, and its next state meets the invariant, which allows only
TableFull with a finite capacity. -/
theorem runningCoreAlwaysSteps : Obligations.RunningCoreAlwaysSteps := by
  intro s hinv hf
  cases hr : s.inp.rst with
  | true =>
    have hstep : step s = .next (State.resetWith s.cfg s.inp s.queue s.draws).advance := by
      rw [step_of_rst hr, resetStep, if_pos hinv.cfgOk]
    have hnone : (State.resetWith s.cfg s.inp s.queue s.draws).advance.faulted = none := State.advance_faulted _
    exact ⟨_, hstep, by rw [hnone]; exact nofun, fun _ => hnone⟩
  | false =>
    have hroom : s.phase = .edgeWait → s.pulseN < 100 := fun hp => Nat.lt_succ_of_le (hinv.pulsesRoom (.inr hp))
    obtain ⟨u, hu⟩ := execPhase_answers hroom
    have hstep : step s = .next u.advance := by
      rw [step_of_running hr hf, exec_fetch, hu]; rfl
    have hcfg : u.cfg = s.cfg := execPhase_cfg hu
    refine ⟨_, hstep, ?_⟩
    rw [State.advance_faulted]
    obtain hnone | ⟨hfull, hcap⟩ := (execPhase_inv hinv hu).faultOk
    · simp [hnone]
    · exact ⟨by simp [hfull], fun hunbounded => absurd (hcfg ▸ hunbounded) hcap⟩

end Sys2Proof.Machine
end

section

/-! # Code words and the code table (20_memory.md R54, R55, R61; 42_codetable.md R141, R146) -/

namespace Sys2Proof.Machine

/-! ## Code words (30_encoding.md R71) -/

section
variable (c : Code)

@[simp] theorem codeWord_byte3 : (codeWord c).extractLsb' 0 8 = c.b3 :=
  BitVec.extractLsb'_append_eq_right

@[simp] theorem codeWord_byte2 : (codeWord c).extractLsb' 8 8 = c.b2 := by
  rw [codeWord, BitVec.extractLsb'_append_eq_of_le (by decide)]
  exact BitVec.extractLsb'_append_eq_right

@[simp] theorem codeWord_byte1 : (codeWord c).extractLsb' 16 8 = c.b1 := by
  rw [codeWord, BitVec.extractLsb'_append_eq_of_le (by decide), BitVec.extractLsb'_append_eq_of_le (by decide)]
  exact BitVec.extractLsb'_append_eq_right

@[simp] theorem codeWord_byte0 : (codeWord c).extractLsb' 24 8 = c.b0 := by
  rw [codeWord, BitVec.extractLsb'_append_eq_of_le (by decide), BitVec.extractLsb'_append_eq_of_le (by decide)]
  exact BitVec.extractLsb'_append_eq_left

@[simp] theorem codeOfWord_codeWord : codeOfWord (codeWord c) = c := by
  simp [codeOfWord]

end

/-- The four bytes of a word, put side by side from the top, are the word. -/
@[simp] theorem codeWord_codeOfWord (w : U32) : codeWord (codeOfWord w) = w := by
  rw [codeWord, codeOfWord, BitVec.extractLsb'_append_extractLsb'_eq_extractLsb' (show 24 = 16 + 8 from rfl),
    BitVec.extractLsb'_append_extractLsb'_eq_extractLsb' (show 16 = 8 + 8 from rfl),
    BitVec.extractLsb'_append_extractLsb'_eq_extractLsb' (show 8 = 0 + 8 from rfl)]
  exact BitVec.extractLsb'_eq_self

/-- Settles O7: each byte is the slice of the concatenation that holds it, and neighbouring slices join to the word. -/
theorem codeWordLayout : Obligations.CodeWordLayout :=
  ⟨fun c => ⟨codeWord_byte0 c, codeWord_byte1 c, codeWord_byte2 c, codeWord_byte3 c, codeOfWord_codeWord c⟩,
    codeWord_codeOfWord⟩

/-! ## The writer of the table -/

/-- No operation but RESOLVE writes the table. -/
theorem execPhase_table {p : Phase} {s t : State} (hp : p ≠ .resolve) (h : execPhase p s = .next t) :
    t.table = s.table := by
  cases p with
  | boundary =>
    obtain ⟨l, r, es, heq, -⟩ := boundaryTake_eq s
    cases h; rw [heq]; rfl
  | sync => obtain ⟨-, rfl⟩ | ⟨_, -, rfl⟩ := execSync_cases h <;> rfl
  | edgeRec => cases h; rfl
  | edgeWait =>
    obtain ⟨rfl, -⟩ | ⟨_, -, ⟨-, rfl⟩ | ⟨-, _, -, ⟨-, -, rfl⟩ | ⟨-, rfl⟩⟩⟩ := execEdgeWait_cases h <;> rfl
  | decode => obtain ⟨-, rfl⟩ | ⟨_, rfl⟩ := execDecode_cases h <;> rfl
  | resolve => exact absurd rfl hp
  | hold => obtain ⟨rfl, -⟩ | ⟨_, -, ⟨-, _, -, rfl⟩ | ⟨-, rfl⟩⟩ := execHold_cases h <;> rfl

/-- RESOLVE leaves the table, or binds the code to the target of the learning session. -/
theorem execResolve_table {s t : State} (h : execResolve s = .next t) :
    t.table = s.table ∨ ∃ target deadline c, s.learn = .listening target deadline ∧ s.code = some c ∧
      tableBind s.cfg.tableCapacity c target s.table = some t.table := by
  obtain ⟨-, -, rfl⟩ | ⟨_, _, _, -, -, -, -, -, rfl⟩ | ⟨_, _, -, -, rfl⟩ |
    ⟨target, d, c, u, hl, -, -, hc, hbind, rfl⟩ | ⟨-, -, rfl⟩ | ⟨_, -, -, -, -, rfl⟩ |
    ⟨_, _, -, -, -, -, -, rfl⟩ := execResolve_cases h
  case inr.inr.inr.inl => exact .inr ⟨target, d, c, hl, hc, hbind⟩
  all_goals exact .inl rfl

/-- A step without `rst` leaves the table, or is a RESOLVE that binds the code to the target of the learning session. -/
theorem step_table {s t : State} (hr : s.inp.rst = false) (h : step s = .next t) :
    t.table = s.table ∨ (s.phase = .resolve ∧ ∃ target deadline c, s.learn = .listening target deadline ∧
      s.code = some c ∧ tableBind s.cfg.tableCapacity c target s.table = some t.table) := by
  obtain ⟨hrst, -, -⟩ | ⟨-, -, u, hu, rfl⟩ := step_cases h
  · simp [hr] at hrst
  rw [exec_fetch] at hu
  rw [State.advance_table]
  by_cases hp : s.phase = .resolve
  · rw [hp] at hu
    exact (execResolve_table hu).imp_right fun hbind => ⟨hp, hbind⟩
  · exact .inl (execPhase_table hp hu)

/-- Settles O50: the bind of RESOLVE is the only writer of the table, and it keeps the keys in front. -/
theorem tableOnlyGrows : Obligations.TableOnlyGrows := by
  intro s t hr h
  obtain hsame | ⟨hp, target, d, c, hl, hc, hbind⟩ := step_table hr h
  · exact ⟨by rw [hsame], fun hne => absurd hsame hne⟩
  · exact ⟨tableBind_keys hbind, fun _ => ⟨hp, target, d, c, hl, hc, hbind⟩⟩

/-! ## A full table -/

/-- A bind fails exactly when it brings a new key to a full table. -/
theorem tableBind_eq_none_iff {cap : Option Nat} {c : Code} {n : ActionName} {t : List Entry} :
    tableBind cap c n t = none ↔ tableLookup c t = none ∧ tableFull cap t = true := by
  cases hkey : tableLookup c t with
  | some _ => simp [tableBind, hkey]
  | none => cases hfull : tableFull cap t <;> simp [tableBind, hkey, hfull]

theorem tableFull_iff {cap : Option Nat} {t : List Entry} : tableFull cap t = true ↔ cap = some t.length := by
  cases cap with
  | none => simp [tableFull]
  | some m => rw [tableFull, beq_iff_eq, Option.some_inj, eq_comm]

/-- Before the deadline, a learning session with a code binds it to its target. -/
theorem execResolve_of_learning {s : State} {target : ActionName} {deadline : U32} {c : Code}
    (hl : s.learn = .listening target deadline) (he : expired s.inp.nowMs deadline = false)
    (hv : s.codeValid = true) (hc : s.code = some c) : execResolve s = learnBind target c s := by
  simp [execResolve, hl, learnResolve, he, hv, readCode, hc]

theorem learnBind_of_bind_none {target : ActionName} {c : Code} {s : State}
    (h : tableBind s.cfg.tableCapacity c target s.table = none) :
    learnBind target c s = .next (faultedFrom s .tableFull) := by
  rw [learnBind, h, raiseFault_eq]

/-- Settles O40: RESOLVE goes on to the bind, which fails on a new key and a full table. -/
theorem fullTableFaults : Obligations.FullTableFaults := by
  intro s target deadline c hl he hv hc hnew hfull
  have hbind : tableBind s.cfg.tableCapacity c target s.table = none :=
    tableBind_eq_none_iff.mpr ⟨hnew, tableFull_iff.mpr hfull⟩
  change execResolve s = _
  rw [execResolve_of_learning hl he hv hc, learnBind_of_bind_none hbind]

end Sys2Proof.Machine
end

section

/-! # Instructions and their encodings (30_encoding.md R75 to R79) -/

namespace Sys2Proof

/-! ## The fields of a command word (R76) -/

/-- A command word is its fields side by side. -/
theorem append_command_fields (w : BitVec 64) : cmdArg w ++ cmdRsv1 w ++ cmdName w ++ cmdRsv0 w ++ cmdOp w = w := by
  rw [cmdArg, cmdRsv1, BitVec.extractLsb'_append_extractLsb'_eq_extractLsb' (show 32 = 16 + 16 from rfl),
    cmdName, BitVec.extractLsb'_append_extractLsb'_eq_extractLsb' (show 16 = 8 + 8 from rfl),
    cmdRsv0, BitVec.extractLsb'_append_extractLsb'_eq_extractLsb' (show 8 = 4 + 4 from rfl),
    cmdOp, BitVec.extractLsb'_append_extractLsb'_eq_extractLsb' (show 4 = 0 + 4 from rfl)]
  exact BitVec.extractLsb'_eq_self

/-- A command word is OP below everything else. -/
theorem append_aboveOp_op (w : BitVec 64) : cmdAboveOp w ++ cmdOp w = w := by
  rw [cmdAboveOp, cmdOp, BitVec.extractLsb'_append_extractLsb'_eq_extractLsb' (show 4 = 0 + 4 from rfl)]
  exact BitVec.extractLsb'_eq_self

/-- Two command words with equal fields are equal. -/
theorem command_ext {w w' : BitVec 64} (hop : cmdOp w = cmdOp w') (hrsv0 : cmdRsv0 w = cmdRsv0 w')
    (hname : cmdName w = cmdName w') (hrsv1 : cmdRsv1 w = cmdRsv1 w') (harg : cmdArg w = cmdArg w') : w = w' := by
  rw [← append_command_fields w, ← append_command_fields w', hop, hrsv0, hname, hrsv1, harg]

section
variable (n : U8) (t : U32)

@[simp] theorem cmdOp_encodeArm : cmdOp (encodeArm n t) = 1 :=
  BitVec.extractLsb'_append_eq_right

@[simp] theorem cmdRsv0_encodeArm : cmdRsv0 (encodeArm n t) = 0 := by
  rw [cmdRsv0, encodeArm, BitVec.extractLsb'_append_eq_of_le (by decide)]
  exact BitVec.extractLsb'_append_eq_right

@[simp] theorem cmdName_encodeArm : cmdName (encodeArm n t) = n := by
  rw [cmdName, encodeArm, BitVec.extractLsb'_append_eq_of_le (by decide),
    BitVec.extractLsb'_append_eq_of_le (by decide)]
  exact BitVec.extractLsb'_append_eq_right

@[simp] theorem cmdRsv1_encodeArm : cmdRsv1 (encodeArm n t) = 0 := by
  rw [cmdRsv1, encodeArm, BitVec.extractLsb'_append_eq_of_le (by decide),
    BitVec.extractLsb'_append_eq_of_le (by decide), BitVec.extractLsb'_append_eq_of_le (by decide)]
  exact BitVec.extractLsb'_append_eq_right

@[simp] theorem cmdArg_encodeArm : cmdArg (encodeArm n t) = t := by
  rw [cmdArg, encodeArm, BitVec.extractLsb'_append_eq_of_le (by decide),
    BitVec.extractLsb'_append_eq_of_le (by decide), BitVec.extractLsb'_append_eq_of_le (by decide)]
  exact BitVec.extractLsb'_append_eq_left

end

/-- R77: an ARM word is OP 1 with its reserved fields 0. -/
def IsArmWord (w : BitVec 64) : Prop := cmdOp w = 1 ∧ cmdRsv0 w = 0 ∧ cmdRsv1 w = 0

theorem isArmWord_encodeArm (n : U8) (t : U32) : IsArmWord (encodeArm n t) :=
  ⟨cmdOp_encodeArm n t, cmdRsv0_encodeArm n t, cmdRsv1_encodeArm n t⟩

/-- An ARM word is the encoding of its own operands. -/
theorem IsArmWord.encodeArm_eq {w : BitVec 64} (h : IsArmWord w) : encodeArm (cmdName w) (cmdArg w) = w := by
  obtain ⟨hop, hrsv0, hrsv1⟩ := h
  exact command_ext (by simp [hop]) (by simp [hrsv0]) (by simp) (by simp [hrsv1]) (by simp)

/-- R78: ARM's mask leaves OP and the reserved fields, and clears the operands. -/
theorem isArmWord_iff_mask {w : BitVec 64} :
    IsArmWord w ↔ w &&& 0x00000000FFFF00FF = 0x0000000000000001 := by
  have hop : cmdOp (w &&& 0x00000000FFFF00FF) = cmdOp w := BitVec.extractLsb'_and.trans BitVec.and_allOnes
  have hrsv0 : cmdRsv0 (w &&& 0x00000000FFFF00FF) = cmdRsv0 w := BitVec.extractLsb'_and.trans BitVec.and_allOnes
  have hname : cmdName (w &&& 0x00000000FFFF00FF) = 0 := BitVec.extractLsb'_and.trans BitVec.and_zero
  have hrsv1 : cmdRsv1 (w &&& 0x00000000FFFF00FF) = cmdRsv1 w := BitVec.extractLsb'_and.trans BitVec.and_allOnes
  have harg : cmdArg (w &&& 0x00000000FFFF00FF) = 0 := BitVec.extractLsb'_and.trans BitVec.and_zero
  constructor
  · rintro ⟨h1, h2, h3⟩
    exact command_ext (hop.trans h1) (hrsv0.trans h2) hname (hrsv1.trans h3) harg
  · intro h
    rw [h] at hop hrsv0 hrsv1
    exact ⟨hop.symm, hrsv0.symm, hrsv1.symm⟩

/-- R77: a SNAPSHOT word is OP 2 with nothing above it. -/
theorem eq_two_iff_fields {w : BitVec 64} : w = 2 ↔ cmdOp w = 2 ∧ cmdAboveOp w = 0 := by
  constructor
  · rintro rfl; exact ⟨rfl, rfl⟩
  · rintro ⟨hop, habove⟩
    rw [← append_aboveOp_op w, hop, habove]; rfl

/-! ## What each word decodes to (R75, R78) -/

theorem decodeCommand_of_isArmWord {w : BitVec 64} (h : IsArmWord w) :
    decodeCommand w = .instr (.arm (cmdName w) (cmdArg w)) := by
  obtain ⟨hop, hrsv0, hrsv1⟩ := h
  rw [decodeCommand, if_pos hop, if_pos ⟨hrsv0, hrsv1⟩]

/-- A command word that decodes is an ARM word, read with its own operands, or the one SNAPSHOT word. -/
theorem decodeCommand_eq_instr {w : BitVec 64} {i : Instr} (h : decodeCommand w = .instr i) :
    (IsArmWord w ∧ i = .arm (cmdName w) (cmdArg w)) ∨ (w = 2 ∧ i = .snapshot) := by
  unfold decodeCommand at h
  split_ifs at h with hop hrsv hop2 habove
  · exact .inl ⟨⟨hop, hrsv⟩, (Decoded.instr.inj h).symm⟩
  · exact .inr ⟨eq_two_iff_fields.mpr ⟨hop2, habove⟩, (Decoded.instr.inj h).symm⟩

/-- A phase value that decodes is the encoding of its operation. -/
theorem encode_of_decodePhase {v : BitVec 3} {i : Instr} (h : decodePhase v = .instr i) : encode i = .phase v := by
  unfold decodePhase at h
  split_ifs at h with h0 h1 h2 h3 h4 h5 h6
  all_goals cases h; subst v; rfl

theorem decode_encode (i : Instr) : decode (encode i) = .instr i := by
  cases i with
  | arm n t =>
    change decodeCommand (encodeArm n t) = _
    rw [decodeCommand_of_isArmWord (isArmWord_encodeArm n t), cmdName_encodeArm, cmdArg_encodeArm]
  | _ => rfl

theorem encode_of_decode {e : Encoded} {i : Instr} (h : decode e = .instr i) : encode i = e := by
  cases e with
  | phase v => exact encode_of_decodePhase h
  | command w =>
    obtain ⟨harm, rfl⟩ | ⟨rfl, rfl⟩ := decodeCommand_eq_instr h
    · exact congrArg Encoded.command harm.encodeArm_eq
    · rfl

/-- Settles O1: the fields of an ARM word read back its operands, and every other instruction has one fixed word. -/
theorem decodeOfEncode : Obligations.DecodeOfEncode := decode_encode

/-- Settles O2: an ARM word is determined by its operands, and every other word that decodes is fixed. -/
theorem encodeOfDecode : Obligations.EncodeOfDecode := fun _ _ => encode_of_decode

/-! ## The classes of command words (R77, R78) -/

theorem decodeCommand_eq_arm_iff {w : BitVec 64} :
    (∃ n t, decodeCommand w = .instr (.arm n t)) ↔ IsArmWord w := by
  constructor
  · rintro ⟨n, t, h⟩
    obtain ⟨harm, -⟩ | ⟨-, hi⟩ := decodeCommand_eq_instr h
    · exact harm
    · cases hi
  · exact fun h => ⟨_, _, decodeCommand_of_isArmWord h⟩

theorem decodeCommand_eq_snapshot_iff {w : BitVec 64} : decodeCommand w = .instr .snapshot ↔ w = 2 := by
  constructor
  · intro h
    exact (Encoded.command.inj (encode_of_decode (e := .command w) h)).symm
  · rintro rfl; rfl

/-- A command word is illegal exactly when it is neither ARM nor SNAPSHOT. -/
theorem decodeCommand_rejected_iff {w : BitVec 64} : (∃ e, decodeCommand w = .rejected e) ↔
    ¬ (∃ n t, decodeCommand w = .instr (.arm n t)) ∧ decodeCommand w ≠ .instr .snapshot := by
  constructor
  · rintro ⟨e, he⟩; simp [he]
  · rintro ⟨harm, hsnapshot⟩
    exact ((Machine.decodeCommand_cases w).resolve_left harm).resolve_left hsnapshot

/-- ARM's operands are the fields NAME and ARG. -/
theorem operands_of_decodeCommand {w : BitVec 64} {n : U8} {t : U32} (h : decodeCommand w = .instr (.arm n t)) :
    n = cmdName w ∧ t = cmdArg w := by
  obtain ⟨-, hi⟩ | ⟨-, hi⟩ := decodeCommand_eq_instr h
  · cases hi; exact ⟨rfl, rfl⟩
  · cases hi

/-- Settles O3: ARM words by fields and by mask, SNAPSHOT as the one word 2, and the rest rejected. -/
theorem commandClassification : Obligations.CommandClassification := by
  intro w
  have hfull : w &&& 0xFFFFFFFFFFFFFFFF = w := BitVec.and_allOnes
  refine ⟨decodeCommand_eq_arm_iff, decodeCommand_eq_arm_iff.trans isArmWord_iff_mask,
    decodeCommand_eq_snapshot_iff.trans eq_two_iff_fields, ?_, decodeCommand_rejected_iff,
    fun _ _ => operands_of_decodeCommand⟩
  rw [hfull]
  exact decodeCommand_eq_snapshot_iff

/-! ## The rows of opcode_table.json (R75, R78) -/

theorem OpcodeRow.takes_iff {r : OpcodeRow} {e : Encoded} :
    r.takes e = true ↔ r.isCommand = e.isCommand ∧ e.bits &&& r.mask = r.pattern := by
  rw [OpcodeRow.takes, Bool.and_eq_true, beq_iff_eq, beq_iff_eq]

/-- The row of `i` takes the encoding of `i`. -/
theorem opcodeRow_takes_encode (i : Instr) : (opcodeRow i).takes (encode i) = true := by
  cases i with
  | arm n t => exact Laws.RowTakes.arm n t
  | _ => rfl

/-- A row of the phase format takes the one value that is its pattern. -/
theorem phase_of_takes {i : Instr} {k : BitVec 3} {e : Encoded} (hformat : (opcodeRow i).isCommand = false)
    (hmask : (opcodeRow i).mask = 7) (hpattern : (opcodeRow i).pattern = k.zeroExtend 64)
    (h : (opcodeRow i).takes e = true) : e = .phase k := by
  obtain ⟨hcommand, hbits⟩ := OpcodeRow.takes_iff.mp h
  cases e with
  | command w => simp [hformat, Encoded.isCommand] at hcommand
  | phase v =>
    have hinj : ∀ v k : BitVec 3, v.zeroExtend 64 &&& 7 = k.zeroExtend 64 → v = k := by decide
    rw [hmask, hpattern] at hbits
    rw [hinj v k hbits]

/-- A row takes only the encodings of its own instructions. -/
theorem encode_of_takes {i : Instr} {e : Encoded} (h : (opcodeRow i).takes e = true) :
    ∃ j, e = encode j ∧ opcodeRow j = opcodeRow i := by
  cases i with
  | arm n t =>
    obtain ⟨hcommand, hbits⟩ := OpcodeRow.takes_iff.mp h
    cases e with
    | phase v => cases hcommand
    | command w =>
      have harm : IsArmWord w := isArmWord_iff_mask.mpr hbits
      exact ⟨.arm (cmdName w) (cmdArg w), congrArg Encoded.command harm.encodeArm_eq.symm, rfl⟩
  | snapshot =>
    obtain ⟨hcommand, hbits⟩ := OpcodeRow.takes_iff.mp h
    cases e with
    | phase v => cases hcommand
    | command w =>
      have hw : w = 2 := BitVec.and_allOnes.symm.trans hbits
      exact ⟨.snapshot, congrArg Encoded.command hw, rfl⟩
  | boundary => exact ⟨.boundary, phase_of_takes rfl rfl rfl h, rfl⟩
  | sync     => exact ⟨.sync, phase_of_takes rfl rfl rfl h, rfl⟩
  | edgeRec  => exact ⟨.edgeRec, phase_of_takes rfl rfl rfl h, rfl⟩
  | edgeWait => exact ⟨.edgeWait, phase_of_takes rfl rfl rfl h, rfl⟩
  | decode   => exact ⟨.decode, phase_of_takes rfl rfl rfl h, rfl⟩
  | resolve  => exact ⟨.resolve, phase_of_takes rfl rfl rfl h, rfl⟩
  | hold     => exact ⟨.hold, phase_of_takes rfl rfl rfl h, rfl⟩

/-- Settles O5: a word that decodes is the encoding of its instruction, and a row takes exactly the encodings of its own. -/
theorem opcodeRowsAgreeWithDecoder : Obligations.OpcodeRowsAgreeWithDecoder := by
  refine ⟨fun e i h => encode_of_decode h ▸ opcodeRow_takes_encode i, fun e i h => ?_⟩
  obtain ⟨j, rfl, hrow⟩ := encode_of_takes h
  exact ⟨j, decode_encode j, hrow⟩

/-! ## Fixed words and values (R73, R75, R79, R85) -/

/-- Settles O4: each phase value is the encoding of its operation, and 7 is the value of no phase. -/
theorem phaseRegisterValues : Obligations.PhaseRegisterValues :=
  ⟨rfl, rfl, rfl, rfl, rfl, rfl, rfl, fun p => by cases p <;> decide, rfl, decode_encode .boundary,
    decode_encode .sync, decode_encode .edgeRec, decode_encode .edgeWait, decode_encode .decode,
    decode_encode .resolve, decode_encode .hold⟩

/-- Settles O6: the decoder evaluated on each word. -/
theorem writtenOutWordsDecode : Obligations.WrittenOutWordsDecode := by
  unfold Obligations.WrittenOutWordsDecode
  decide

end Sys2Proof
end

section

/-! # Names, events and responses (30_encoding.md R73, R80, R86 to R89) -/

namespace Sys2Proof.Machine

/-! ## Names and event records -/

/-- R74: the known values are 1 to 6. -/
theorem isKnownCode_iff {v : U8} : isKnownCode v = true ↔ 1 ≤ v.toNat ∧ v.toNat ≤ 6 := by
  rw [isKnownCode, Bool.and_eq_true, decide_eq_true_iff, decide_eq_true_iff, BitVec.le_def, BitVec.le_def]; rfl

/-- Each known value is that of the name it stands for. -/
theorem nameCode_nameOfCode : ∀ v : U8, isKnownCode v = true → nameCode (nameOfCode v) = v := by decide

/-- Settles O9: the two tables of values, and the range of known ones. -/
theorem nameAndStatusCodes : Obligations.NameAndStatusCodes :=
  ⟨rfl, rfl, rfl, rfl, rfl, rfl, rfl, rfl, rfl, rfl, rfl, rfl, fun _ => isKnownCode_iff,
    fun v h => ⟨nameCode_nameOfCode v h, isKnown_nameOfCode h⟩, fun _ => isKnown_iff⟩

section
variable (k n : U8) (c : U32)

@[simp] theorem eventRecord_code : (eventRecord k n c).extractLsb' 0 32 = c :=
  BitVec.extractLsb'_append_eq_right

@[simp] theorem eventRecord_name : (eventRecord k n c).extractLsb' 32 8 = n := by
  rw [eventRecord, BitVec.extractLsb'_append_eq_of_le (by decide)]
  exact BitVec.extractLsb'_append_eq_right

@[simp] theorem eventRecord_kind : (eventRecord k n c).extractLsb' 40 8 = k := by
  rw [eventRecord, BitVec.extractLsb'_append_eq_of_le (by decide)]
  exact BitVec.extractLsb'_append_eq_left

end

/-- Settles O8: each field of the record is the slice of the concatenation that holds it. -/
theorem eventRecordLayout : Obligations.EventRecordLayout :=
  ⟨fun k n c => ⟨eventRecord_kind k n c, eventRecord_name k n c, eventRecord_code k n c⟩,
    rfl, fun _ _ => rfl, fun _ => rfl, fun _ => rfl, fun _ _ => rfl, fun _ => rfl⟩

/-- Settles O28: `snapshotStep` answers the table before the step and keeps it, with the learning state. -/
theorem snapshotReturnsTable : Obligations.SnapshotReturnsTable :=
  fun s => ⟨snapshotStep s, rfl, rfl, rfl, rfl, rfl⟩

/-! ## The outputs of a step (R80, R88) -/

/-- No operation but BOUNDARY and RESOLVE answers or emits anything. -/
theorem execPhase_silent {p : Phase} {s t : State} (hb : p ≠ .boundary) (hr : p ≠ .resolve)
    (h : execPhase p s = .next t) : silent t := by
  cases p with
  | boundary => exact absurd rfl hb
  | sync => obtain ⟨-, rfl⟩ | ⟨_, -, rfl⟩ := execSync_cases h <;> exact ⟨rfl, rfl⟩
  | edgeRec => cases h; exact ⟨rfl, rfl⟩
  | edgeWait =>
    obtain ⟨rfl, -⟩ | ⟨_, -, ⟨-, rfl⟩ | ⟨-, _, -, ⟨-, -, rfl⟩ | ⟨-, rfl⟩⟩⟩ := execEdgeWait_cases h <;>
      exact ⟨rfl, rfl⟩
  | decode => obtain ⟨-, rfl⟩ | ⟨_, rfl⟩ := execDecode_cases h <;> exact ⟨rfl, rfl⟩
  | resolve => exact absurd rfl hr
  | hold => obtain ⟨rfl, -⟩ | ⟨_, -, ⟨-, _, -, rfl⟩ | ⟨-, rfl⟩⟩ := execHold_cases h <;> exact ⟨rfl, rfl⟩

/-- RESOLVE answers no command, and emits at most one event after UNDECODABLE. -/
theorem execResolve_outputs {s t : State} (h : execResolve s = .next t) :
    t.resp = none ∧ (t.events = [] ∨ ∃ es, es.length ≤ 1 ∧ t.events = undecodableEvents s ++ es) := by
  obtain ⟨-, -, rfl⟩ | ⟨_, _, _, -, -, -, -, -, rfl⟩ | ⟨target, _, -, -, rfl⟩ |
    ⟨target, _, c, _, -, -, -, -, -, rfl⟩ | ⟨-, -, rfl⟩ | ⟨c, -, -, -, -, rfl⟩ |
    ⟨c, n, -, -, -, -, -, rfl⟩ := execResolve_cases h
  · exact ⟨rfl, .inl rfl⟩
  · exact ⟨rfl, .inl rfl⟩
  · exact ⟨rfl, .inr ⟨[.learnTimeout target], le_rfl, rfl⟩⟩
  · exact ⟨rfl, .inr ⟨[.learnBound target c], le_rfl, rfl⟩⟩
  · exact ⟨rfl, .inr ⟨[], Nat.zero_le _, (List.append_nil _).symm⟩⟩
  · exact ⟨rfl, .inr ⟨[.decodedUnknown c], le_rfl, rfl⟩⟩
  · exact ⟨rfl, .inr ⟨[.decodedKnown n c], le_rfl, rfl⟩⟩

/-- UNDECODABLE comes first where it comes at all. -/
theorem undecodableEvents_append {s : State} {es : List Event} (hes : es.length ≤ 1) :
    (undecodableEvents s ++ es).length ≤ 1 ∨
    ((undecodableEvents s ++ es).length ≤ 2 ∧ (undecodableEvents s ++ es).head? = some .undecodable) := by
  unfold undecodableEvents
  split_ifs
  · exact .inr ⟨Nat.succ_le_succ hes, rfl⟩
  · exact .inl hes

/-- An operation emits at most one event, but for a RESOLVE that begins with UNDECODABLE, which emits at most two. -/
theorem execPhase_events {p : Phase} {s t : State} (h : execPhase p s = .next t) :
    t.events.length ≤ 1 ∨ (p = .resolve ∧ t.events.length ≤ 2 ∧ t.events.head? = some .undecodable) := by
  by_cases hb : p = .boundary
  · subst hb
    obtain ⟨l, r, es, heq, hlen, -⟩ := boundaryTake_eq s
    cases h; rw [heq]; exact .inl hlen
  by_cases hr : p = .resolve
  · subst hr
    obtain ⟨-, hnone | ⟨es, hes, hevents⟩⟩ := execResolve_outputs h
    · exact .inl (by simp [hnone])
    · rw [hevents]
      exact (undecodableEvents_append hes).imp_right fun htwo => ⟨rfl, htwo⟩
  · obtain ⟨-, hnone⟩ := execPhase_silent hb hr h
    exact .inl (by simp [hnone])

/-- An operation answers exactly when it is the BOUNDARY that takes a command. -/
theorem execPhase_resp {p : Phase} {s t : State} (h : execPhase p s = .next t) :
    t.resp ≠ none ↔ p = .boundary ∧ s.inp.cmd ≠ none := by
  by_cases hb : p = .boundary
  · subst hb
    obtain ⟨l, r, es, heq, -, hr, -⟩ := boundaryTake_eq s
    cases h; rw [heq]
    exact (not_congr hr).trans (and_iff_right rfl).symm
  · have hnone : t.resp = none := by
      by_cases hr : p = .resolve
      · subst hr; exact (execResolve_outputs h).1
      · exact (execPhase_silent hb hr h).1
    simp [hb, hnone]

/-- Settles O53: a reset step emits nothing, and an operation two events only in RESOLVE, after UNDECODABLE. -/
theorem atMostTwoEventsPerStep : Obligations.AtMostTwoEventsPerStep := by
  intro s t h
  obtain ⟨-, -, rfl⟩ | ⟨-, -, u, hu, rfl⟩ := step_cases h
  · rw [State.advance_events]; exact ⟨Nat.zero_le _, fun htwo => absurd htwo (by simp [State.resetWith])⟩
  · rw [exec_fetch] at hu
    rw [State.advance_events]
    obtain hone | ⟨hp, htwo, hhead⟩ := execPhase_events hu
    · exact ⟨by omega, fun htwo => by omega⟩
    · exact ⟨htwo, fun _ => ⟨hp, hhead⟩⟩

/-- Settles O54: without `rst` the step is the operation of the phase, and only a BOUNDARY that takes a command answers. -/
theorem responseExactlyForCommands : Obligations.ResponseExactlyForCommands := by
  intro s t hrst h
  obtain ⟨hreset, -, -⟩ | ⟨-, -, u, hu, rfl⟩ := step_cases h
  · simp [hrst] at hreset
  · rw [exec_fetch] at hu
    rw [State.advance_resp]
    exact execPhase_resp hu

end Sys2Proof.Machine
end

section

/-! # Capture (40_capture.md R101 to R107, R111) -/

namespace Sys2Proof.Machine

/-! ## Running several steps -/

section
variable {M : Host.Core}

theorem run_succ_of_next {n : Nat} {s t : M.State} (h : M.step s = .next t) : M.run (n + 1) s = M.run n t := by
  rw [Host.Core.run, h]

/-- A run goes on from the state its first steps reach. -/
theorem run_add_of_next {m n : Nat} {s t : M.State} (h : M.run m s = .next t) : M.run (m + n) s = M.run n t := by
  induction m generalizing s with
  | zero => cases h; rw [Nat.zero_add]
  | succ m ih =>
    cases hu : M.step s with
    | next u =>
      rw [run_succ_of_next hu] at h
      rw [Nat.succ_add, run_succ_of_next hu, ih h]
    | fault | refused => simp [Host.Core.run, hu] at h

end

theorem run_succ_of_step {n : Nat} {s t : State} (h : step s = .next t) : core.run (n + 1) s = core.run n t :=
  run_succ_of_next (M := core) h

/-- A step of a running core whose operation answers. -/
theorem step_of_execPhase {p : Phase} {s t : State} (hr : s.inp.rst = false) (hf : s.faulted = none)
    (hp : s.phase = p) (h : execPhase p s = .next t) : step s = .next t.advance := by
  rw [step_of_running hr hf, exec_fetch, hp, h]; rfl

/-- The samples that this step and the next ones read begin with `l` (log entry 1). -/
def Sees (l : List Sample) (s : State) : Prop := l <+: s.inp :: s.queue

theorem Sees.inp_eq {s : State} {x : Sample} {l : List Sample} (h : Sees (x :: l) s) : s.inp = x :=
  (List.cons_prefix_cons.mp h).1.symm

/-- An operation leaves the samples in line, so the next step reads the second one. -/
theorem Sees.advance {s t : State} {x : Sample} {l : List Sample} (h : Sees (x :: l) s) (hq : t.queue = s.queue) :
    Sees l t.advance := by
  have hl : l <+: t.queue := hq ▸ (List.cons_prefix_cons.mp h).2
  cases hcons : t.queue with
  | nil =>
    rw [hcons] at hl
    obtain rfl := List.prefix_nil.mp hl
    exact List.nil_prefix
  | cons y q => rw [hcons] at hl; rw [State.advance_of_cons hcons]; exact hl

/-! ## What the three operations answer -/

theorem timedOut_eq_false_iff {now start limit : U32} :
    timedOut now start limit = false ↔ (udiff32 now start).toNat < limit.toNat := by
  rw [← Bool.not_eq_true, timedOut_iff, Nat.not_le]

theorem syncNext_eq (limit t0 : U32) (x : Sample) :
    syncNext limit t0 x = if limit.toNat ≤ (x.nowMs - t0).toNat then .decode
      else if x.line = false then .edgeRec else .sync := by
  simp only [syncNext, timedOut_iff, udiff32]

theorem execSync_of_time {s : State} {t0 : U32} (h : s.syncT0Ms = some t0) :
    execSync s = .next ((s.goto (syncNext s.cfg.idleTimeoutMs t0 s.inp)).drive none []) := by
  rw [execSync, h, withValue_some]

section
variable {s : State} {t0 : U32} (ht0 : s.edgeT0Us = some t0)
include ht0

/-- R106: the timeout ends the capture, whatever the level. -/
theorem execEdgeWait_of_timeout (ht : timedOut s.inp.nowUs t0 s.cfg.pulseTimeoutUs = true) :
    execEdgeWait s = .next ((s.goto .decode).drive none []) := by
  rw [execEdgeWait, ht0, withValue_some, if_pos ht]

variable {level : Bool} (hl : s.edgeLevel = some level)
include hl

/-- R105, R107: a level change before the timeout is appended. -/
theorem execEdgeWait_of_change (ht : timedOut s.inp.nowUs t0 s.cfg.pulseTimeoutUs = false) (hne : s.inp.line ≠ level)
    (hn : s.pulseN < 100) :
    execEdgeWait s = .next (((s.appendPulse (udiff32 s.inp.nowUs t0)).goto
      (if s.pulseN + 1 = 100 then .decode else .edgeRec)).drive none []) := by
  rw [execEdgeWait, ht0, withValue_some, if_neg (by simp [ht]), hl, withValue_some, if_pos hne, appendStep, pulsesMax,
    if_pos hn]

theorem execEdgeWait_of_same_level (ht : timedOut s.inp.nowUs t0 s.cfg.pulseTimeoutUs = false)
    (heq : s.inp.line = level) : execEdgeWait s = .next ((s.goto .edgeWait).drive none []) := by
  rw [execEdgeWait, ht0, withValue_some, if_neg (by simp [ht]), hl, withValue_some, if_neg (not_not.mpr heq)]

/-- With its level and time at hand, EDGE_WAIT writes only `phase` and the pulse buffer. -/
theorem execEdgeWait_frame {t : State} (h : execEdgeWait s = .next t) :
    silent t ∧ t.syncT0Ms = s.syncT0Ms ∧ sameMachine s t ∧ sameEdge s t ∧ sameCode s t ∧ sameLearning s t ∧
      sameOutputs s t ∧ t.faulted = s.faulted := by
  obtain ⟨-, hnone | hnone⟩ | ⟨_, -, ⟨-, rfl⟩ | ⟨-, _, -, ⟨-, -, rfl⟩ | ⟨-, rfl⟩⟩⟩ := execEdgeWait_cases h
  · cases ht0.symm.trans hnone
  · cases hl.symm.trans hnone
  all_goals exact ⟨⟨rfl, rfl⟩, rfl, ⟨rfl, rfl, rfl, rfl⟩, ⟨rfl, rfl⟩, ⟨rfl, rfl⟩, ⟨rfl, rfl⟩, ⟨rfl, rfl, rfl⟩, rfl⟩

end

/-- The append writes the entry at index `pulse_n` (20_memory.md R51). -/
theorem appendPulse_entry_self {s : State} (d : U32) (hn : s.pulseN < 100) :
    (s.appendPulse d).buf[s.pulseN]? = some (some d) := by
  rw [State.appendPulse_buf, Vector.getElem?_setIfInBounds_self_of_lt hn]

/-- The append leaves every other entry alone. -/
theorem appendPulse_entry_ne {s : State} (d : U32) {k : Nat} (hk : k ≠ s.pulseN) :
    (s.appendPulse d).buf[k]? = s.buf[k]? := by
  rw [State.appendPulse_buf, Vector.getElem?_setIfInBounds_ne hk.symm]

/-- Settles O29: `syncNext` on integers; the rest is the frame of `goto` and `drive`. -/
theorem syncWaitsForStart : Obligations.SyncWaitsForStart :=
  ⟨rfl, fun _ _ h => ⟨_, execSync_of_time h, syncNext_eq _ _ _, ⟨rfl, rfl⟩, rfl, ⟨rfl, rfl, rfl, rfl⟩, ⟨rfl, rfl⟩,
    ⟨rfl, rfl⟩, ⟨rfl, rfl⟩, ⟨rfl, rfl⟩, ⟨rfl, rfl, rfl⟩, rfl⟩⟩

/-- Settles O30: `recordEdge` of the sample, and the move to EDGE_WAIT. -/
theorem edgeRecRecords : Obligations.EdgeRecRecords :=
  ⟨rfl, fun _ => ⟨_, rfl, rfl, rfl, rfl, ⟨rfl, rfl⟩, rfl, ⟨rfl, rfl, rfl, rfl⟩, ⟨rfl, rfl⟩, ⟨rfl, rfl⟩, ⟨rfl, rfl⟩,
    ⟨rfl, rfl, rfl⟩, rfl⟩⟩

/-- Settles O31: the three ways EDGE_WAIT answers, one clause each, and the frame they share. -/
theorem edgeWaitAppends : Obligations.EdgeWaitAppends := by
  intro s t0 level ht0 hl hn
  obtain ⟨t, h⟩ := execEdgeWait_answers hn
  refine ⟨t, h, fun hlate => ?_, fun hsoon hne => ?_, fun hsoon heq => ?_, execEdgeWait_frame ht0 hl h⟩
  · cases h.symm.trans (execEdgeWait_of_timeout ht0 (timedOut_iff.mpr hlate))
    exact ⟨rfl, rfl, rfl⟩
  · cases h.symm.trans (execEdgeWait_of_change ht0 hl (timedOut_eq_false_iff.mpr hsoon) hne hn)
    exact ⟨rfl, rfl, appendPulse_entry_self _ hn, fun _ => appendPulse_entry_ne _⟩
  · cases h.symm.trans (execEdgeWait_of_same_level ht0 hl (timedOut_eq_false_iff.mpr hsoon) heq)
    exact ⟨rfl, rfl, rfl⟩

/-! ## The capture of a waveform (R111) -/

/-- A running core with parameters `p` whose pulse buffer holds `ds`. -/
structure Captured (p : Params) (ds : List U32) (s : State) : Prop where
  cfg     : s.cfg = p
  running : s.faulted = none
  count   : s.pulseN = ds.length
  entries : ∀ k, k < ds.length → s.buf[k]? = some ds[k]?

/-- EDGE_WAIT times the pulse that EDGE_REC saw in the sample `x`. -/
structure TimingFrom (x : Sample) (s : State) : Prop where
  phase : s.phase = .edgeWait
  time  : s.edgeT0Us = some x.nowUs
  level : s.edgeLevel = some x.line

/-- Where a capture of `n` entries stands between two pulses (R107). -/
def phaseAfter (n : Nat) : Phase := if n = 100 then .decode else .edgeRec

section
variable {p : Params} {ds : List U32} {s : State} (hs : Captured p ds s)
include hs

theorem Captured.goto (q : Phase) : Captured p ds (s.goto q) := { hs with }

theorem Captured.recordEdge (level : Bool) (t : U32) : Captured p ds (s.recordEdge level t) := { hs with }

theorem Captured.drive (r : Option Response) (es : List Event) : Captured p ds (s.drive r es) := { hs with }

theorem Captured.advance : Captured p ds s.advance :=
  ⟨by simp [hs.cfg], by simp [hs.running], by simp [hs.count], by simpa using hs.entries⟩

theorem Captured.appendPulse (hroom : ds.length < 100) (d : U32) : Captured p (ds ++ [d]) (s.appendPulse d) := by
  refine ⟨hs.cfg, hs.running, by simp [hs.count], fun k hk => ?_⟩
  obtain hlt | rfl : k < ds.length ∨ k = ds.length := by
    rw [List.length_append, List.length_singleton] at hk; omega
  · rw [appendPulse_entry_ne d (by rw [hs.count]; omega), List.getElem?_append_left hlt, hs.entries k hlt]
  · have hself := appendPulse_entry_self d (hs.count ▸ hroom)
    rw [hs.count] at hself
    rw [hself, List.getElem?_concat_length]

/-- The decoder reads the captured durations, and nothing above them. -/
theorem Captured.readPulse_eq : readPulse s = fun k => ds[k]? := by
  funext k
  rw [readPulse, hs.count]
  split_ifs with hk
  · rw [hs.entries k hk, Option.join_some]
  · exact (List.getElem?_eq_none (Nat.not_lt.mp hk)).symm

/-- EDGE_REC starts the timing of a pulse at its sample. -/
theorem Captured.step_edgeRec {x : Sample} {l : List Sample} (hp : s.phase = .edgeRec) (hsees : Sees (x :: l) s)
    (hr : x.rst = false) : ∃ t, step s = .next t ∧ Captured p ds t ∧ TimingFrom x t ∧ Sees l t := by
  obtain rfl := hsees.inp_eq
  refine ⟨_, step_of_execPhase hr hs.running hp rfl, ?_, ?_, hsees.advance rfl⟩
  · exact (((hs.recordEdge _ _).goto _).drive _ _).advance
  · exact ⟨by simp, by simp, by simp⟩

section
variable {x y : Sample} {l : List Sample} (htiming : TimingFrom x s) (hsees : Sees (y :: l) s) (hr : y.rst = false)
include htiming hsees hr

/-- A change before the timeout is captured with the time since the pulse began. -/
theorem Captured.step_change (hroom : ds.length < 100) (hsoon : timedOut y.nowUs x.nowUs p.pulseTimeoutUs = false)
    (hchange : y.line ≠ x.line) : ∃ t, step s = .next t ∧
      Captured p (ds ++ [udiff32 y.nowUs x.nowUs]) t ∧ t.phase = phaseAfter (ds.length + 1) ∧ Sees l t := by
  obtain rfl := hsees.inp_eq
  have hexec := execEdgeWait_of_change htiming.time htiming.level (hs.cfg ▸ hsoon) hchange (hs.count ▸ hroom)
  refine ⟨_, step_of_execPhase hr hs.running htiming.phase hexec, ?_, ?_, hsees.advance rfl⟩
  · exact (((hs.appendPulse hroom _).goto _).drive _ _).advance
  · simp [hs.count, phaseAfter]

/-- A timeout ends the capture. -/
theorem Captured.step_timeout (hlate : timedOut y.nowUs x.nowUs p.pulseTimeoutUs = true) :
    ∃ t, step s = .next t ∧ Captured p ds t ∧ t.phase = .decode ∧ Sees l t := by
  obtain rfl := hsees.inp_eq
  have hexec := execEdgeWait_of_timeout htiming.time (hs.cfg ▸ hlate)
  refine ⟨_, step_of_execPhase hr hs.running htiming.phase hexec, ?_, by simp, hsees.advance rfl⟩
  exact ((hs.goto _).drive _ _).advance

end

/-- Two steps capture one pulse of an ideally polled waveform. -/
theorem Captured.run_pulse {ms us d : U32} {level : Bool} {l : List Sample} (hroom : ds.length < 100)
    (hp : s.phase = .edgeRec) (hd : d < p.pulseTimeoutUs)
    (hsees : Sees (edgeSample ms level us :: edgeSample ms (!level) (us + d) :: l) s) :
    ∃ t, core.run 2 s = .next t ∧ Captured p (ds ++ [d]) t ∧ t.phase = phaseAfter (ds.length + 1) ∧ Sees l t := by
  obtain ⟨u, hstep, hu, htiming, hsees⟩ := hs.step_edgeRec hp hsees rfl
  have helapsed : udiff32 (us + d) us = d := add_sub_cancel_left us d
  have hsoon : timedOut (us + d) us p.pulseTimeoutUs = false := by
    rw [timedOut_eq_false_iff, helapsed]; exact hd
  obtain ⟨t, hstep', ht⟩ := hu.step_change htiming hsees rfl hroom hsoon (Bool.not_ne_self level)
  refine ⟨t, ?_, helapsed ▸ ht⟩
  rw [run_succ_of_step hstep, run_succ_of_step hstep']; rfl

end

/-- Two steps a pulse capture the durations of an ideally polled waveform, after those already captured. -/
theorem Captured.run_edgeSamples {p : Params} {ms : U32} {rest : List Sample} {ds : List U32}
    (hshort : ∀ d ∈ ds, d < p.pulseTimeoutUs) {before : List U32} {s : State} {level : Bool} {us : U32}
    (hs : Captured p before s) (hroom : before.length + ds.length ≤ 100) (hp : s.phase = phaseAfter before.length)
    (hsees : Sees (edgeSamples ms level us ds ++ rest) s) :
    ∃ t, core.run (2 * ds.length) s = .next t ∧ Captured p (before ++ ds) t ∧
      t.phase = phaseAfter (before ++ ds).length ∧ Sees rest t := by
  induction ds generalizing before s level us with
  | nil => rw [List.append_nil]; exact ⟨s, rfl, hs, hp, hsees⟩
  | cons d ds ih =>
    obtain ⟨hd, hshort⟩ := List.forall_mem_cons.mp hshort
    rw [List.length_cons] at hroom
    have hrec : s.phase = .edgeRec := by rw [hp, phaseAfter, if_neg (by omega)]
    obtain ⟨u, hrun, hu, hphase, hsees⟩ := hs.run_pulse (by omega) hrec hd hsees
    have hlen : (before ++ [d]).length = before.length + 1 := List.length_append
    obtain ⟨t, hrun', ht⟩ := ih hshort hu (by omega) (hlen ▸ hphase) hsees
    rw [List.append_assoc, List.singleton_append] at ht
    refine ⟨t, ?_, ht⟩
    rw [List.length_cons, Nat.mul_succ, Nat.add_comm, run_add_of_next hrun, hrun']

/-- From EDGE_REC with an empty buffer, a capture takes in the waveform it sees. -/
theorem run_edgeSamples_from_empty {s : State} {ms us : U32} {level : Bool} {ds : List U32} {rest : List Sample}
    (hp : s.phase = .edgeRec) (hf : s.faulted = none) (hn : s.pulseN = 0) (hroom : ds.length ≤ 100)
    (hshort : ∀ d ∈ ds, d < s.cfg.pulseTimeoutUs) (hsamples : s.inp :: s.queue = edgeSamples ms level us ds ++ rest) :
    ∃ t, core.run (2 * ds.length) s = .next t ∧ Captured s.cfg ds t ∧ t.phase = phaseAfter ds.length ∧ Sees rest t :=
  have hempty : Captured s.cfg [] s := ⟨rfl, hf, hn, nofun⟩
  hempty.run_edgeSamples hshort (by simpa using hroom) hp ⟨[], by rw [List.append_nil, hsamples]⟩

/-- Settles O32: one pulse is EDGE_REC and an EDGE_WAIT that sees the change, and the capture is their repetition. -/
theorem captureRecordsWaveform : Obligations.CaptureRecordsWaveform := by
  intro s ms us level ds rest hp hf hn _ hroom hshort hsamples
  obtain ⟨t, hrun, ht, hphase, -⟩ := run_edgeSamples_from_empty hp hf hn hroom hshort hsamples
  exact ⟨t, hrun, ht.count, ht.entries, hphase⟩

end Sys2Proof.Machine
end

section

/-! # A frame on the line (41_decode.md R120 to R126; 95_test_vectors.md section 0) -/

namespace Sys2Proof.Machine

/-! ## The data bits read -/

/-- The `n` most significant bits of `w`, with 0 below them. -/
def topBits (w : U32) (n : Nat) : U32 := w >>> (32 - n) <<< (32 - n)

theorem getLsbD_topBits (w : U32) (n j : Nat) (hj : j < 32) :
    (topBits w n).getLsbD j = (decide (32 - n ≤ j) && w.getLsbD j) := by
  by_cases h : 32 - n ≤ j
  · simp [topBits, h, hj, Nat.not_lt.mpr h]
  · simp [topBits, h, Nat.not_le.mp h]

theorem topBits_zero (w : U32) : topBits w 0 = 0 := by
  simp [topBits]

theorem topBits_all (w : U32) : topBits w 32 = w := by
  simp [topBits]

/-- R126: data bit `i` of the sequence lands in bit `31 - i` of the word. -/
theorem getLsbD_bitAt {i : Nat} (hi : i < 32) (b : Bool) (j : Nat) :
    (bitAt i b).getLsbD j = (decide (j = 31 - i) && b) := by
  obtain hlt | rfl | hgt := Nat.lt_trichotomy j (31 - i)
  · simp [bitAt, hlt, hlt.ne]
  · have hin : 31 - i < 32 := by omega
    simp [bitAt, hin]
  · have habove : j - (31 - i) ≠ 0 := by omega
    simp [bitAt, hgt.ne', habove]

theorem topBits_or_bitAt (w : U32) {i : Nat} (hi : i < 32) :
    topBits w i ||| bitAt i (w.getLsbD (31 - i)) = topBits w (i + 1) := by
  apply BitVec.eq_of_getLsbD_eq
  intro j hj
  rw [BitVec.getLsbD_or, getLsbD_topBits _ _ _ hj, getLsbD_topBits _ _ _ hj, getLsbD_bitAt hi]
  by_cases h : j = 31 - i
  · have hold : ¬ 32 - i ≤ j := by omega
    have hnew : 32 - (i + 1) ≤ j := by omega
    rw [decide_eq_false hold, decide_eq_true hnew, decide_eq_true h, h]; rfl
  · have hsame : 32 - i ≤ j ↔ 32 - (i + 1) ≤ j := by omega
    rw [decide_eq_false h, decide_eq_decide.mpr hsame, Bool.false_and, Bool.or_false]

/-- Spaces of the classes of the leading bits of `w` are read as these bits. -/
theorem necBits_of_classes {rd : Nat → Option U32} {w : U32} {n : Nat} (hn : n ≤ 32)
    (h : ∀ i, i < n → (rd (3 + 2 * i)).bind classify = some (w.getLsbD (31 - i))) :
    necBits rd n = .accept (topBits w n) := by
  induction n with
  | zero => rw [topBits_zero]; rfl
  | succ i ih =>
    obtain ⟨v, hv, hclass⟩ := Option.bind_eq_some_iff.mp (h i (Nat.lt_succ_self i))
    rw [necBits, ih (by omega) fun j hj => h j (Nat.lt_succ_of_lt hj)]
    simp only [hv, hclass]
    rw [topBits_or_bitAt w hn]

/-! ## The frame F(w) -/

/-- In a list of marks and spaces the entries of odd index are the spaces. -/
theorem getElem?_flatMap_space (mark : U32) (space : Nat → U32) (l : List Nat) (i : Nat) :
    (l.flatMap fun j => [mark, space j])[2 * i + 1]? = l[i]?.map space := by
  induction l generalizing i with
  | nil => rfl
  | cons j l ih =>
    cases i with
    | zero => rfl
    | succ i => exact ih i

theorem length_frameDurations (w : U32) : (frameDurations w).length = 67 := rfl

/-- The space of data bit `i`. -/
theorem getElem?_frameDurations_space (w : U32) {i : Nat} (hi : i < 32) :
    (frameDurations w)[3 + 2 * i]? = some (if w.getLsbD (31 - i) then 1650 else 550) := by
  have hspace := getElem?_flatMap_space 560 (fun j => if w.getLsbD (31 - j) then 1650 else 550) (List.range 32) i
  rw [List.getElem?_range hi, Option.map_some] at hspace
  obtain ⟨hlt, -⟩ := List.getElem?_eq_some_iff.mp hspace
  rw [Nat.add_comm 3, ← hspace, ← List.getElem?_append_left (l₂ := [560]) hlt]; rfl

theorem toNat_le_of_mem_frameDurations {w d : U32} (h : d ∈ frameDurations w) : d.toNat ≤ 9000 := by
  simp only [frameDurations, List.mem_append, List.mem_flatMap, List.mem_cons, List.not_mem_nil, or_false] at h
  obtain ((rfl | rfl) | ⟨i, -, rfl | rfl⟩) | rfl := h
  case inl.inr.inr => split_ifs <;> decide
  all_goals decide

/-- Each space of the frame is classed as the bit it was made from. -/
theorem classify_space (b : Bool) : classify (if b then 1650 else 550) = some b := by
  cases b <;> rfl

theorem necDecode_frameDurations (w : U32) :
    necDecode (fun k => (frameDurations w)[k]?) (frameDurations w).length = .accept w := by
  have hbits : necBits (fun k => (frameDurations w)[k]?) 32 = .accept w := by
    rw [necBits_of_classes le_rfl fun i hi => ?_, topBits_all]
    rw [getElem?_frameDurations_space w hi]
    exact classify_space _
  change necHeader (some 9000) hdrMarkLo hdrMarkHi (necHeader (some 4500) hdrSpaceLo hdrSpaceHi (necBits _ 32)) = _
  rw [hbits]; rfl

theorem execDecode_of_accept {s : State} {w : U32} (h : necDecode (readPulse s) s.pulseN = .accept w) :
    execDecode s = .next (((s.setVerdict (some (codeOfWord w))).goto .resolve).drive none []) := by
  rw [execDecode, h]; rfl

/-- DECODE on a captured frame gives the Code of its word. -/
theorem Captured.step_decode_frame {p : Params} {w : U32} {s : State} (hs : Captured p (frameDurations w) s)
    (hp : s.phase = .decode) (hr : s.inp.rst = false) :
    ∃ t, step s = .next t ∧ t.phase = .resolve ∧ t.codeValid = true ∧ t.code = some (codeOfWord w) := by
  have haccept : necDecode (readPulse s) s.pulseN = .accept w := by
    rw [hs.readPulse_eq, hs.count, necDecode_frameDurations]
  refine ⟨_, step_of_execPhase hr hs.running hp (execDecode_of_accept haccept), ?_⟩
  exact ⟨by simp, by simp, by simp⟩

/-- Settles O35: 134 steps capture the frame, a pulse timeout ends the capture, and DECODE accepts it. -/
theorem frameOnLineBecomesItsCode : Obligations.FrameOnLineBecomesItsCode := by
  intro s w ms us x y z rest hp hf hn hlimit hsamples hx hy hz hlate
  have hshort : ∀ d ∈ frameDurations w, d < s.cfg.pulseTimeoutUs := fun d hd =>
    (toNat_le_of_mem_frameDurations hd).trans_lt hlimit
  have hroom : (frameDurations w).length ≤ 100 := by rw [length_frameDurations]; decide
  obtain ⟨a, hrun, ha, hphase, hsees⟩ := run_edgeSamples_from_empty hp hf hn hroom hshort hsamples
  obtain ⟨b, hrec, hb, htiming, hsees⟩ := ha.step_edgeRec hphase hsees hx
  obtain ⟨c, hwait, hc, hphase, hsees⟩ := hb.step_timeout htiming hsees hy hlate
  obtain ⟨t, hdecode, ht⟩ := hc.step_decode_frame hphase (hsees.inp_eq ▸ hz)
  refine ⟨t, ?_, ht⟩
  calc core.run 137 s
    _ = core.run 3 a := run_add_of_next (n := 3) hrun
    _ = core.run 2 b := run_succ_of_step hrec
    _ = core.run 1 c := run_succ_of_step hwait
    _ = .next t := run_succ_of_step hdecode

end Sys2Proof.Machine
end

section

/-! # The decoder's verdict (41_decode.md R120 to R129) -/

namespace Sys2Proof.Machine

/-! ## The entries examined (R127) -/

theorem necBits_congr {rd rd' : Nat → Option U32} {n : Nat} (h : ∀ i, i < n → rd (3 + 2 * i) = rd' (3 + 2 * i)) :
    necBits rd n = necBits rd' n := by
  induction n with
  | zero => rfl
  | succ i ih => simp only [necBits, ih fun j hj => h j (Nat.lt_succ_of_lt hj), h i (Nat.lt_succ_self i)]

/-- R121: a short sequence is rejected. -/
theorem necDecode_of_short {rd : Nat → Option U32} {n : Nat} (hn : ¬ 66 ≤ n) : necDecode rd n = .reject :=
  if_pos (Nat.not_le.mp hn)

theorem necDecode_of_long {rd : Nat → Option U32} {n : Nat} (hn : 66 ≤ n) : necDecode rd n =
    necHeader (rd 0) hdrMarkLo hdrMarkHi (necHeader (rd 1) hdrSpaceLo hdrSpaceHi (necBits rd 32)) :=
  if_neg (Nat.not_lt.mpr hn)

/-- R127: of a sequence long enough, the verdict depends on the entries examined alone, not on the length either. -/
theorem necDecode_congr {rd rd' : Nat → Option U32} {n m : Nat} (hlong : 66 ≤ n ↔ 66 ≤ m)
    (h : 66 ≤ n → ∀ k, examined k → rd k = rd' k) : necDecode rd n = necDecode rd' m := by
  by_cases hn : 66 ≤ n
  · have hex := h hn
    rw [necDecode_of_long hn, necDecode_of_long (hlong.mp hn), hex 0 (.inl rfl), hex 1 (.inr (.inl rfl)),
      necBits_congr fun i hi => hex _ (.inr (.inr ⟨i, hi, rfl⟩))]
  · rw [necDecode_of_short hn, necDecode_of_short (mt hlong.mpr hn)]

/-- The verdict on the durations stored, read as if every entry held one. -/
def storedVerdict (s : State) : Verdict := necDecode (fun k => some (storedPulse s k)) s.pulseN

theorem storedVerdict_ne_unwritten (s : State) : storedVerdict s ≠ .unwritten :=
  necDecode_ne_unwritten fun _ _ => Option.some_ne_none _

theorem necDecode_readPulse {s : State} (h : 66 ≤ s.pulseN → examinedHeld s) :
    necDecode (readPulse s) s.pulseN = storedVerdict s :=
  necDecode_congr Iff.rfl h

/-! ## Each check (R121 to R124) -/

/-- R124: a space is classed as a bit exactly when it is in one of the two windows, and it is a 1 in the upper one. -/
theorem classify_eq_some_iff {v : U32} {b : Bool} : classify v = some b ↔
    ((400 < v.toNat ∧ v.toNat < 700) ∨ (1500 < v.toNat ∧ v.toNat < 1800)) ∧ b = decide (1500 < v.toNat) := by
  have h0 : inOpen v bit0Lo bit0Hi = true ↔ 400 < v.toNat ∧ v.toNat < 700 := inOpen_iff
  have h1 : inOpen v bit1Lo bit1Hi = true ↔ 1500 < v.toNat ∧ v.toNat < 1800 := inOpen_iff
  rw [← h0, ← h1, classify]
  split_ifs with hz ho
  · have hlow : ¬ 1500 < v.toNat := by have := h0.mp hz; omega
    rw [and_iff_right (.inl hz), decide_eq_false hlow, Option.some_inj, eq_comm]
  · rw [and_iff_right (.inr ho), decide_eq_true (h1.mp ho).1, Option.some_inj, eq_comm]
  · simp [hz, ho]

theorem necHeader_some_eq_accept_iff {v lo hi w : U32} {rest : Verdict} :
    necHeader (some v) lo hi rest = .accept w ↔ (lo.toNat < v.toNat ∧ v.toNat < hi.toNat) ∧ rest = .accept w := by
  change (if inOpen v lo hi = true then rest else .reject) = .accept w ↔ _
  rw [← inOpen_iff]
  split_ifs with h <;> simp [h]

/-! ## The bits (R125, R126) -/

/-- R125: one more bit is read exactly when those before it were and its space has a class. -/
theorem necBits_succ_eq_accept_iff {rd : Nat → Option U32} {i : Nat} {w : U32} : necBits rd (i + 1) = .accept w ↔
    ∃ w', necBits rd i = .accept w' ∧ ∃ b, (rd (3 + 2 * i)).bind classify = some b ∧ w' ||| bitAt i b = w := by
  rw [necBits]
  cases necBits rd i with
  | reject => simp
  | unwritten => simp
  | accept w' =>
    cases rd (3 + 2 * i) with
    | none => simp
    | some v => cases hc : classify v <;> simp [hc]

theorem exists_necBits_eq_accept_iff {rd : Nat → Option U32} {n : Nat} :
    (∃ w, necBits rd n = .accept w) ↔ ∀ i, i < n → ∃ b, (rd (3 + 2 * i)).bind classify = some b := by
  induction n with
  | zero => exact ⟨fun _ _ => nofun, fun _ => ⟨0, rfl⟩⟩
  | succ i ih =>
    rw [Nat.forall_lt_succ_right, ← ih]
    constructor
    · rintro ⟨w, h⟩
      obtain ⟨w', hw', b, hb, -⟩ := necBits_succ_eq_accept_iff.mp h
      exact ⟨⟨w', hw'⟩, b, hb⟩
    · rintro ⟨⟨w', hw'⟩, b, hb⟩
      exact ⟨_, necBits_succ_eq_accept_iff.mpr ⟨w', hw', b, hb, rfl⟩⟩

/-- R126: the classes are the leading bits of the word, with 0 below them. -/
theorem classes_of_necBits {rd : Nat → Option U32} {n : Nat} {w : U32} (hn : n ≤ 32) (h : necBits rd n = .accept w) :
    (∀ i, i < n → (rd (3 + 2 * i)).bind classify = some (w.getLsbD (31 - i))) ∧
    ∀ i, n ≤ i → i < 32 → w.getLsbD (31 - i) = false := by
  induction n generalizing w with
  | zero => cases h; exact ⟨fun _ => nofun, fun _ _ _ => BitVec.getLsbD_zero⟩
  | succ n ih =>
    obtain ⟨w', hw', b, hb, rfl⟩ := necBits_succ_eq_accept_iff.mp h
    obtain ⟨hread, hrest⟩ := ih (Nat.le_of_succ_le hn) hw'
    have hother : ∀ i, i < 32 → i ≠ n → (w' ||| bitAt n b).getLsbD (31 - i) = w'.getLsbD (31 - i) := by
      intro i hi hne
      have hplace : ¬ 31 - i = 31 - n := by omega
      simp [getLsbD_bitAt hn, hplace]
    refine ⟨Nat.forall_lt_succ_right.mpr ⟨fun i hi => ?_, ?_⟩, fun i hi hi32 => ?_⟩
    · rw [hother i (by omega) hi.ne, hread i hi]
    · simp [getLsbD_bitAt hn, hrest n le_rfl hn, hb]
    · rw [hother i hi32 (by omega), hrest i (by omega) hi32]

/-! ## The verdict as a whole -/

theorem storedVerdict_eq_accept_iff {s : State} {w : U32} : storedVerdict s = .accept w ↔
    66 ≤ s.pulseN ∧ (8500 < (storedPulse s 0).toNat ∧ (storedPulse s 0).toNat < 9500) ∧
    (4000 < (storedPulse s 1).toNat ∧ (storedPulse s 1).toNat < 5000) ∧
    necBits (fun k => some (storedPulse s k)) 32 = .accept w := by
  by_cases hn : 66 ≤ s.pulseN
  · rw [storedVerdict, necDecode_of_long hn, necHeader_some_eq_accept_iff, necHeader_some_eq_accept_iff]
    exact (and_iff_right hn).symm
  · rw [storedVerdict, necDecode_of_short hn]
    exact iff_of_false nofun fun ⟨hlong, _⟩ => hn hlong

/-- R125: every check passes, or there is no code. -/
theorem exists_storedVerdict_eq_accept_iff {s : State} : (∃ w, storedVerdict s = .accept w) ↔
    66 ≤ s.pulseN ∧ (8500 < (storedPulse s 0).toNat ∧ (storedPulse s 0).toNat < 9500) ∧
    (4000 < (storedPulse s 1).toNat ∧ (storedPulse s 1).toNat < 5000) ∧
    ∀ i, i < 32 →
      (400 < (storedPulse s (3 + 2 * i)).toNat ∧ (storedPulse s (3 + 2 * i)).toNat < 700) ∨
      (1500 < (storedPulse s (3 + 2 * i)).toNat ∧ (storedPulse s (3 + 2 * i)).toNat < 1800) := by
  simp only [storedVerdict_eq_accept_iff, exists_and_left, exists_necBits_eq_accept_iff, Option.bind_some,
    classify_eq_some_iff, exists_eq, and_true]

theorem getLsbD_of_storedVerdict {s : State} {w : U32} (h : storedVerdict s = .accept w) {i : Nat} (hi : i < 32) :
    w.getLsbD (31 - i) = decide (1500 < (storedPulse s (3 + 2 * i)).toNat) := by
  obtain ⟨-, -, -, hbits⟩ := storedVerdict_eq_accept_iff.mp h
  obtain ⟨hclass, -⟩ := classes_of_necBits le_rfl hbits
  exact (classify_eq_some_iff.mp (hclass i hi)).2

/-! ## The DECODE step (R120) -/

/-- The Code that DECODE stores for a verdict. -/
def Verdict.code : Verdict → Option Code
  | .accept w  => some (codeOfWord w)
  | .reject    => none
  | .unwritten => none

theorem Verdict.code_eq_some_iff {v : Verdict} {c : Code} : v.code = some c ↔ v = .accept (codeWord c) := by
  cases v with
  | reject => simp [Verdict.code]
  | unwritten => simp [Verdict.code]
  | accept w =>
    have hword : codeOfWord w = c ↔ w = codeWord c :=
      ⟨fun h => by rw [← h, codeWord_codeOfWord], fun h => by rw [h, codeOfWord_codeWord]⟩
    simpa [Verdict.code] using hword

theorem Verdict.code_isSome_iff {v : Verdict} : v.code.isSome = true ↔ ∃ w, v = .accept w := by
  cases v <;> simp [Verdict.code]

theorem execDecode_of_examinedHeld {s : State} (h : 66 ≤ s.pulseN → examinedHeld s) :
    execDecode s = .next (((s.setVerdict (storedVerdict s).code).goto .resolve).drive none []) := by
  rw [execDecode, necDecode_readPulse h]
  cases hv : storedVerdict s with
  | accept w => rfl
  | reject => rfl
  | unwritten => exact absurd hv (storedVerdict_ne_unwritten s)

/-- Settles O33: the verdict's checks as integer windows, its bits as classes, and the frame of DECODE's one write. -/
theorem decodeJudgesSequence : Obligations.DecodeJudgesSequence := by
  refine ⟨rfl, fun s hheld => ⟨_, execDecode_of_examinedHeld hheld, rfl, rfl, ?_, fun c hc i hi => ?_, ⟨rfl, rfl⟩, rfl,
    ⟨rfl, rfl, rfl, rfl⟩, ⟨rfl, rfl⟩, ⟨rfl, rfl⟩, ⟨rfl, rfl⟩, ⟨rfl, rfl, rfl⟩, rfl⟩⟩
  · exact Verdict.code_isSome_iff.trans exists_storedVerdict_eq_accept_iff
  · exact getLsbD_of_storedVerdict (Verdict.code_eq_some_iff.mp hc) hi

/-- Settles O34: both steps store the Code of one verdict, which the examined entries determine. -/
theorem decodeIgnoresOtherEntries : Obligations.DecodeIgnoresOtherEntries := by
  intro s u hs hu hsheld huheld hagree
  have hverdict : storedVerdict s = storedVerdict u :=
    necDecode_congr (iff_of_true hs hu) fun _ k hk => congrArg some (hagree k hk)
  have hcode : (storedVerdict s).code = (storedVerdict u).code := congrArg Verdict.code hverdict
  exact ⟨_, _, execDecode_of_examinedHeld fun _ => hsheld, execDecode_of_examinedHeld fun _ => huheld,
    congrArg Option.isSome hcode, hcode⟩

end Sys2Proof.Machine
end

section

/-! # Lookups and binds of the code table (42_codetable.md R140 to R145) -/

namespace Sys2Proof.Machine

/-! ## What a lookup finds (R140) -/

@[simp] theorem tableLookup_cons_self (e : Entry) (t : List Entry) : tableLookup e.key (e :: t) = some e.name :=
  if_pos rfl

theorem tableLookup_cons_of_ne {e : Entry} {c : Code} (h : e.key ≠ c) (t : List Entry) :
    tableLookup c (e :: t) = tableLookup c t :=
  if_neg h

/-- A lookup answers the name of the first entry whose key is the Code (log entry 18). -/
theorem tableLookup_eq_find? (c : Code) (t : List Entry) :
    tableLookup c t = (t.find? (·.key = c)).map Entry.name := by
  induction t with
  | nil => rfl
  | cons e t ih =>
    by_cases h : e.key = c
    · subst h
      simp
    · simp [tableLookup_cons_of_ne, h, ih]

theorem tableLookup_eq_none_iff {c : Code} {t : List Entry} : tableLookup c t = none ↔ ∀ e ∈ t, e.key ≠ c := by
  simp [tableLookup_eq_find?]

theorem tableLookup_eq_none_iff_notMem {c : Code} {t : List Entry} :
    tableLookup c t = none ↔ c ∉ t.map Entry.key := by
  rw [← tableLookup_isSome_iff, Option.not_isSome_iff_eq_none]

theorem exists_mem_of_tableLookup {c : Code} {t : List Entry} {n : ActionName} (h : tableLookup c t = some n) :
    ∃ e ∈ t, e.key = c ∧ e.name = n := by
  rw [tableLookup_eq_find?, Option.map_eq_some_iff] at h
  obtain ⟨e, hfind, hname⟩ := h
  exact ⟨e, List.mem_of_find?_eq_some hfind, by simpa using List.find?_some hfind, hname⟩

/-- Where keys are distinct, the entry found for an entry's key is that entry. -/
theorem tableLookup_of_mem {t : List Entry} (ht : keysDistinct t = true) {e : Entry} (he : e ∈ t) :
    tableLookup e.key t = some e.name := by
  obtain ⟨n, hn⟩ := Option.ne_none_iff_exists'.mp fun hnone => tableLookup_eq_none_iff.mp hnone e he rfl
  obtain ⟨e', he', hkey, rfl⟩ := exists_mem_of_tableLookup hn
  rw [hn, List.inj_on_of_nodup_map (of_decide_eq_true ht) he' he hkey]

/-- Settles O36: a lookup is the first entry with the key, which is the only one where keys are distinct. -/
theorem lookupIsExact : Obligations.LookupIsExact :=
  fun _ _ => ⟨tableLookup_eq_none_iff, fun _ => exists_mem_of_tableLookup, fun ht _ => tableLookup_of_mem ht⟩

/-! ## What a bind leaves to find (R141, R142) -/

theorem tableLookup_append (c : Code) (t u : List Entry) :
    tableLookup c (t ++ u) = (tableLookup c t).or (tableLookup c u) := by
  simp [tableLookup_eq_find?, List.find?_append, Option.map_or]

theorem tableLookup_tableOverwrite_self {c : Code} (n : ActionName) {t : List Entry} (hc : c ∈ t.map Entry.key) :
    tableLookup c (tableOverwrite c n t) = some n := by
  induction t with
  | nil => simp at hc
  | cons e t ih =>
    by_cases h : e.key = c
    · simp [tableOverwrite, tableLookup, h]
    · have hct : c ∈ t.map Entry.key := (List.mem_cons.mp hc).resolve_left (Ne.symm h)
      simp [tableOverwrite, tableLookup, h, ih hct]

theorem tableLookup_tableOverwrite_of_ne {c c' : Code} (h : c' ≠ c) (n : ActionName) (t : List Entry) :
    tableLookup c' (tableOverwrite c n t) = tableLookup c' t := by
  induction t with
  | nil => rfl
  | cons e t ih =>
    by_cases he : e.key = c
    · have hmiss : e.key ≠ c' := fun hkey => h (hkey.symm.trans he)
      simp only [tableOverwrite, if_pos he, tableLookup, if_neg hmiss]
    · simp [tableOverwrite, tableLookup, he, ih]

theorem tableLookup_tableBind_self {cap : Option Nat} {c : Code} {n : ActionName} {t u : List Entry}
    (h : tableBind cap c n t = some u) : tableLookup c u = some n := by
  obtain ⟨hold, rfl⟩ | ⟨hnew, -, rfl⟩ := tableBind_cases h
  · exact tableLookup_tableOverwrite_self n hold
  · simp [tableLookup_append, tableLookup_eq_none_iff_notMem.mpr hnew, tableLookup]

theorem tableLookup_tableBind_of_ne {cap : Option Nat} {c c' : Code} {n : ActionName} {t u : List Entry}
    (h : tableBind cap c n t = some u) (hne : c' ≠ c) : tableLookup c' u = tableLookup c' t := by
  obtain ⟨-, rfl⟩ | ⟨-, -, rfl⟩ := tableBind_cases h
  · exact tableLookup_tableOverwrite_of_ne hne n t
  · simp [tableLookup_append, tableLookup, hne.symm]

theorem tableBind_keys_of_hit {cap : Option Nat} {c : Code} {n : ActionName} {t u : List Entry}
    (h : tableBind cap c n t = some u) (hhit : tableLookup c t ≠ none) : u.map Entry.key = t.map Entry.key := by
  obtain ⟨-, rfl⟩ | ⟨hnew, -, -⟩ := tableBind_cases h
  · exact tableOverwrite_keys c n t
  · exact absurd (tableLookup_eq_none_iff_notMem.mpr hnew) hhit

theorem tableBind_eq_append_of_miss {cap : Option Nat} {c : Code} {n : ActionName} {t u : List Entry}
    (h : tableBind cap c n t = some u) (hmiss : tableLookup c t = none) : u = t ++ [⟨c, n⟩] := by
  obtain ⟨hold, -⟩ | ⟨-, -, hu⟩ := tableBind_cases h
  · exact absurd hold (tableLookup_eq_none_iff_notMem.mp hmiss)
  · exact hu

/-- Settles O37: the failure, the two kinds of lookup after a bind, and the table's form after a hit and a miss. -/
theorem bindOverwritesOrAppends : Obligations.BindOverwritesOrAppends := by
  refine fun cap c n t => ⟨by rw [tableBind_eq_none_iff, tableFull_iff], fun u hu => ?_⟩
  exact ⟨tableLookup_tableBind_self hu, fun _ => tableLookup_tableBind_of_ne hu, tableBind_keys_of_hit hu,
    tableBind_eq_append_of_miss hu⟩

/-! ## The seed after reset (R145) -/

theorem tableWellFormed_nil (cap : Option Nat) : tableWellFormed cap [] = true := by
  cases cap <;> rfl

/-- The configuration after power-on is admitted, whatever the opaque seed is (log entry 3). -/
theorem params_wellFormed : Config.params.wellFormed = true := by
  unfold Config.params
  split_ifs with hopen
  · exact hopen
  · exact tableWellFormed_nil _

theorem keysDistinct_of_tableWellFormed {cap : Option Nat} {t : List Entry} (h : tableWellFormed cap t = true) :
    keysDistinct t = true := by
  simp only [tableWellFormed, Bool.and_eq_true] at h
  exact h.1.1

theorem tableLookup_resetWith {p : Params} (h : p.wellFormed = true) (x : Sample) (q : List Sample) (d : Nat)
    {e : Entry} (he : e ∈ p.seedTable) : tableLookup e.key (State.resetWith p x q d).table = some e.name :=
  tableLookup_of_mem (keysDistinct_of_tableWellFormed h) he

/-- Settles O17: the reset table is the seed, whose keys are distinct in an admitted configuration. -/
theorem seedResolvesAfterReset : Obligations.SeedResolvesAfterReset :=
  ⟨fun _ x q d h _ he => tableLookup_resetWith h x q d he,
    fun _ he => tableLookup_resetWith params_wellFormed _ _ _ he⟩

end Sys2Proof.Machine
end

section

/-! # Learning (43_learning.md R160 to R170) -/

namespace Sys2Proof.Machine

/-! ## The deadline and its expiry (R165, R166) -/

theorem expired_iff {now deadline : U32} : expired now deadline = true ↔ (udiff32 now deadline).toNat < 2 ^ 31 := by
  rw [expired, decide_eq_true_iff, BitVec.lt_def]; rfl

theorem expired_eq_false_iff {now deadline : U32} :
    expired now deadline = false ↔ 2 ^ 31 ≤ (udiff32 now deadline).toNat := by
  rw [← Bool.not_eq_true, expired_iff, Nat.not_lt]

/-- Sampling commutes with setting a deadline: its wrap is that of the real deadline. -/
theorem deadlineOf_ofNat (armed timeout : Nat) :
    deadlineOf (BitVec.ofNat 32 armed) (BitVec.ofNat 32 timeout) = BitVec.ofNat 32 (armed + timeout) :=
  (BitVec.ofNat_add armed timeout).symm

/-- From the deadline on, the test reads the real time since it. -/
theorem expired_ofNat_of_le {now deadline : Nat} (h : deadline ≤ now) (hlt : now < deadline + 2 ^ 31) :
    expired (BitVec.ofNat 32 now) (BitVec.ofNat 32 deadline) = true := by
  rw [expired_iff, udiff32_ofNat_toNat h (by omega)]
  omega

/-- Before the deadline, the test reads the real time left, negated modulo 2^32, which is at least 2^31. -/
theorem expired_ofNat_of_lt {now deadline : Nat} (h : now < deadline) (hlt : deadline < now + 2 ^ 31) :
    expired (BitVec.ofNat 32 now) (BitVec.ofNat 32 deadline) = false := by
  have hneg : udiff32 (BitVec.ofNat 32 now) (BitVec.ofNat 32 deadline) =
      -udiff32 (BitVec.ofNat 32 deadline) (BitVec.ofNat 32 now) := (neg_sub _ _).symm
  rw [expired_eq_false_iff, hneg, BitVec.toNat_neg, udiff32_ofNat_toNat h.le (by omega)]
  omega

/-- Settles O12: the deadline is the sample of the real one, so both clauses speak of real times. -/
theorem expiryIsExact : Obligations.ExpiryIsExact := by
  intro armed timeout now htimeout harmed
  rw [deadlineOf_ofNat]
  exact ⟨fun hbefore => expired_ofNat_of_lt hbefore (by omega), expired_ofNat_of_le⟩

/-! ## The status of ARM (R162 to R164) -/

theorem timeoutLimit_le_iff {t : U32} : timeoutLimit ≤ t ↔ 2 ^ 31 ≤ t.toNat := Iff.rfl

section
variable {n : U8} {timeout : U32} {l : Learn}

theorem armStatus_of_unknown (hn : isKnownCode n = false) : armStatus n timeout l = .invalidTarget :=
  if_pos hn

theorem armStatus_of_long (hn : isKnownCode n = true) (ht : 2 ^ 31 ≤ timeout.toNat) :
    armStatus n timeout l = .invalidTimeout := by
  simp [armStatus, hn, timeoutLimit_le_iff.mpr ht]

theorem armStatus_of_valid (hn : isKnownCode n = true) (ht : timeout.toNat < 2 ^ 31) :
    armStatus n timeout l = if l ≠ .idle then .busy else .ok := by
  have hshort : ¬ timeoutLimit ≤ timeout := mt timeoutLimit_le_iff.mp (Nat.not_le.mpr ht)
  simp only [armStatus, hn, hshort, Bool.true_eq_false, if_false]

end

/-! ## The step that takes ARM (R161, R165) -/

section
variable {n : U8} {timeout : U32} {s : State}

/-- With an error status, ARM answers it and does no more. -/
theorem armStep_of_error {st : Status} (h : armStatus n timeout s.learn = st) (hst : st ≠ .ok) :
    (armStep n timeout s).resp = some ⟨st, .empty⟩ ∧ (armStep n timeout s).learn = s.learn ∧
      (armStep n timeout s).events = [] := by
  have herr : armStatus n timeout s.learn ≠ .ok := h ▸ hst
  exact ⟨by rw [← h]; rfl, if_neg herr, if_neg herr⟩

/-- With status OK, ARM starts the session and reports it. -/
theorem armStep_of_ok (h : armStatus n timeout s.learn = .ok) :
    (armStep n timeout s).learn = .listening (nameOfCode n) (deadlineOf s.inp.nowMs timeout) ∧
      (armStep n timeout s).events = [.learnArmed (nameOfCode n)] ∧
      (armStep n timeout s).resp = some ⟨.ok, .empty⟩ :=
  ⟨if_pos h, if_pos h, by rw [← h]; rfl⟩

end

/-- Settles O26: the frame of a BOUNDARY step, and one status for each condition in its order. -/
theorem armErrorStatuses : Obligations.ArmErrorStatuses := by
  intro s n timeout
  refine ⟨armStep n timeout s, rfl, rfl, rfl, ⟨rfl, rfl, rfl, rfl⟩, ⟨rfl, rfl⟩, ⟨rfl, rfl, rfl⟩, rfl, ?_, ?_, ?_⟩
  · exact fun hn => armStep_of_error (armStatus_of_unknown hn) nofun
  · exact fun hn ht => armStep_of_error (armStatus_of_long hn ht) nofun
  · exact fun hn ht hl => armStep_of_error ((armStatus_of_valid hn ht).trans (if_pos hl)) nofun

/-- Settles O25: valid operands from Idle give status OK. -/
theorem armStartsSession : Obligations.ArmStartsSession := by
  intro s n timeout hn ht hl
  have hok : armStatus n timeout s.learn = .ok := (armStatus_of_valid hn ht).trans (if_neg (not_not.mpr hl))
  obtain ⟨hlearn, hevents, hresp⟩ := armStep_of_ok hok
  exact ⟨armStep n timeout s, rfl, hlearn, hevents, hresp, rfl⟩

/-! ## RESOLVE while Listening (R167 to R170) -/

/-- With a code there is no UNDECODABLE (44_dispatch.md R186). -/
theorem undecodableEvents_of_codeValid {s : State} (hv : s.codeValid = true) : undecodableEvents s = [] :=
  if_neg fun h => by simp [hv] at h

theorem eq_undecodable_of_mem {s : State} {e : Event} (h : e ∈ undecodableEvents s) : e = .undecodable := by
  unfold undecodableEvents at h
  split_ifs at h
  · exact List.mem_singleton.mp h
  · exact nomatch h

theorem eq_undecodable_or_eq_of_mem {s : State} {e e' : Event} (h : e ∈ undecodableEvents s ++ [e']) :
    e = .undecodable ∨ e = e' :=
  (List.mem_append.mp h).imp eq_undecodable_of_mem List.mem_singleton.mp

section
variable {s : State} {target : ActionName} {deadline : U32} (hl : s.learn = .listening target deadline)
include hl

/-- At or after the deadline the session times out, with or without a code. -/
theorem execResolve_of_expired (he : expired s.inp.nowMs deadline = true) :
    execResolve s = endCycle [.learnTimeout target] (s.setLearn .idle) := by
  simp [execResolve, hl, learnResolve, he]

/-- Before the deadline and without a code the session goes on. -/
theorem execResolve_of_listening_without_code (he : expired s.inp.nowMs deadline = false)
    (hv : s.codeValid = false) : execResolve s = endCycle [] s := by
  simp [execResolve, hl, learnResolve, he, hv]

end

theorem learnBind_of_bind_some {target : ActionName} {c : Code} {s : State} {u : List Entry}
    (h : tableBind s.cfg.tableCapacity c target s.table = some u) :
    learnBind target c s = endCycle [.learnBound target c] ((s.setTable u).setLearn .idle) := by
  rw [learnBind, h]

/-- Settles O38: the three branches of `learnResolve`. -/
theorem learningResolves : Obligations.LearningResolves := by
  intro s target deadline hl
  refine ⟨fun he => ⟨_, execResolve_of_expired hl he, rfl, rfl, rfl, rfl, rfl⟩, fun c table he hv hc hbind => ?_,
    fun he hv => ⟨_, execResolve_of_listening_without_code hl he hv, rfl, rfl, rfl, List.append_nil _, rfl⟩⟩
  have hevents : undecodableEvents ((s.setTable table).setLearn .idle) ++ [.learnBound target c] =
      [.learnBound target c] := by
    rw [undecodableEvents_of_codeValid (s := (s.setTable table).setLearn .idle) hv, List.nil_append]
  exact ⟨_, (execResolve_of_learning hl he hv hc).trans (learnBind_of_bind_some hbind), rfl, rfl, rfl, hevents, rfl⟩

/-- RESOLVE while Listening drives no line, and reports nothing but UNDECODABLE and the session's end. -/
theorem execResolve_of_listening {s t : State} {target : ActionName} {deadline : U32}
    (hl : s.learn = .listening target deadline) (h : execResolve s = .next t) :
    sameOutputs s t ∧ ∀ e ∈ t.events, e = .undecodable ∨ e = .learnTimeout target ∨ ∃ c, e = .learnBound target c := by
  obtain ⟨-, -, rfl⟩ | ⟨_, _, _, -, -, -, -, -, rfl⟩ | ⟨m, _, hm, -, rfl⟩ | ⟨m, _, c, _, hm, -, -, -, -, rfl⟩ |
    ⟨-, -, rfl⟩ | ⟨_, hi, -⟩ | ⟨_, _, hi, -⟩ := execResolve_cases h
  · exact ⟨⟨rfl, rfl, rfl⟩, nofun⟩
  · exact ⟨⟨rfl, rfl, rfl⟩, nofun⟩
  · cases hl.symm.trans hm
    exact ⟨⟨rfl, rfl, rfl⟩, fun e he => (eq_undecodable_or_eq_of_mem he).imp_right .inl⟩
  · cases hl.symm.trans hm
    exact ⟨⟨rfl, rfl, rfl⟩, fun e he => (eq_undecodable_or_eq_of_mem he).imp_right fun hbound => .inr ⟨c, hbound⟩⟩
  · exact ⟨⟨rfl, rfl, rfl⟩, fun e he => .inl (eq_undecodable_of_mem he)⟩
  · exact nomatch hl.symm.trans hi
  · exact nomatch hl.symm.trans hi

/-- Settles O39: no event of RESOLVE while Listening is one of dispatch. -/
theorem learningTakesPriority : Obligations.LearningTakesPriority := by
  intro s t target deadline hl h
  obtain ⟨hsame, hevents⟩ := execResolve_of_listening hl h
  exact ⟨hsame, fun n c => ⟨mt (hevents _) (by simp), mt (hevents _) (by simp)⟩⟩

/-! ## The writers of the learning state (R160) -/

/-- No operation but BOUNDARY and RESOLVE writes the learning state. -/
theorem execPhase_learn {p : Phase} {s t : State} (hb : p ≠ .boundary) (hr : p ≠ .resolve)
    (h : execPhase p s = .next t) : t.learn = s.learn := by
  cases p with
  | boundary => exact absurd rfl hb
  | sync => obtain ⟨-, rfl⟩ | ⟨_, -, rfl⟩ := execSync_cases h <;> rfl
  | edgeRec => cases h; rfl
  | edgeWait =>
    obtain ⟨rfl, -⟩ | ⟨_, -, ⟨-, rfl⟩ | ⟨-, _, -, ⟨-, -, rfl⟩ | ⟨-, rfl⟩⟩⟩ := execEdgeWait_cases h <;> rfl
  | decode => obtain ⟨-, rfl⟩ | ⟨_, rfl⟩ := execDecode_cases h <;> rfl
  | resolve => exact absurd rfl hr
  | hold => obtain ⟨rfl, -⟩ | ⟨_, -, ⟨-, _, -, rfl⟩ | ⟨-, rfl⟩⟩ := execHold_cases h <;> rfl

/-- BOUNDARY leaves the learning state, or starts a session from Idle on an ARM word with valid operands. -/
theorem boundaryTake_learn (s : State) :
    (boundaryTake s).learn = s.learn ∨ (s.learn = .idle ∧ ∃ w n timeout, s.inp.cmd = some w ∧
      decodeCommand w = .instr (.arm n timeout) ∧ isKnownCode n = true ∧ timeout.toNat < 2 ^ 31 ∧
      (boundaryTake s).learn = .listening (nameOfCode n) (s.inp.nowMs + timeout)) := by
  obtain ⟨l, r, es, heq, -, -, hl⟩ := boundaryTake_eq s
  rw [heq]
  exact hl

/-- RESOLVE leaves the learning state, or ends a session that has expired or has a code. -/
theorem execResolve_learn {s t : State} (h : execResolve s = .next t) :
    t.learn = s.learn ∨ (t.learn = .idle ∧ ∃ target deadline, s.learn = .listening target deadline ∧
      (expired s.inp.nowMs deadline = true ∨ s.codeValid = true)) := by
  obtain ⟨-, -, rfl⟩ | ⟨_, _, _, -, -, -, -, -, rfl⟩ | ⟨target, d, hl, he, rfl⟩ |
    ⟨target, d, _, _, hl, -, hv, -, -, rfl⟩ | ⟨-, -, rfl⟩ | ⟨_, -, -, -, -, rfl⟩ |
    ⟨_, _, -, -, -, -, -, rfl⟩ := execResolve_cases h
  case inr.inr.inl => exact .inr ⟨rfl, target, d, hl, .inl he⟩
  case inr.inr.inr.inl => exact .inr ⟨rfl, target, d, hl, .inr hv⟩
  all_goals exact .inl rfl

/-- Settles O49: the step is the operation of its phase, and only those of BOUNDARY and RESOLVE write the learning state. -/
theorem learnChangesOnlyByArmOrResolve : Obligations.LearnChangesOnlyByArmOrResolve := by
  intro s t hrst h hne
  obtain ⟨hreset, -, -⟩ | ⟨-, -, u, hu, rfl⟩ := step_cases h
  · simp [hrst] at hreset
  rw [exec_fetch] at hu
  rw [State.advance_learn] at hne ⊢
  by_cases hb : s.phase = .boundary
  · rw [hb] at hu
    cases hu
    exact .inl ⟨hb, (boundaryTake_learn s).resolve_left hne⟩
  by_cases hr : s.phase = .resolve
  · rw [hr] at hu
    exact .inr ⟨hr, (execResolve_learn hu).resolve_left hne⟩
  · exact absurd (execPhase_learn hb hr hu) hne

end Sys2Proof.Machine
end

section

/-! # Dispatch and the hold of a line (44_dispatch.md R180 to R186) -/

namespace Sys2Proof.Machine

/-! ## The output lines (10_state.md R30) -/

/-- Driving a line changes that line alone, and nothing for the sentinel, which has none (log entry 13). -/
theorem outGet_outSet (o : Outputs) (n m : ActionName) (v : Bool) :
    outGet (outSet o n v) m = if m = n then isKnown n && v else outGet o m := by
  cases n <;> cases m <;> rfl

theorem outGet_outSet_of_ne {n m : ActionName} (h : m ≠ n) (o : Outputs) (v : Bool) :
    outGet (outSet o n v) m = outGet o m := by
  rw [outGet_outSet, if_neg h]

theorem outGet_outSet_true {n : ActionName} (hn : isKnown n = true) (o : Outputs) :
    outGet (outSet o n true) n = true := by
  rw [outGet_outSet, if_pos rfl, hn]; rfl

@[simp] theorem outGet_outSet_false (o : Outputs) (n : ActionName) : outGet (outSet o n false) n = false := by
  rw [outGet_outSet, if_pos rfl, Bool.and_false]

@[simp] theorem outGet_allLow (n : ActionName) : outGet .allLow n = false := by
  cases n <;> rfl

/-- Driving the line of `m` high raises no other. -/
theorem eq_of_outSet_true_rises {o : Outputs} {n m : ActionName} (hlow : outGet o n = false)
    (hhigh : outGet (outSet o m true) n = true) : n = m := by
  by_contra hne
  rw [outGet_outSet_of_ne hne, hlow] at hhigh
  exact Bool.false_ne_true hhigh

/-- Driving a line low raises none. -/
theorem outGet_of_outSet_false {o : Outputs} {n m : ActionName} (h : outGet (outSet o m false) n = true) :
    outGet o n = true := by
  by_cases heq : n = m
  · rw [heq, outGet_outSet_false] at h
    exact absurd h Bool.false_ne_true
  · rwa [outGet_outSet_of_ne heq] at h

/-! ## RESOLVE while Idle (R180 to R182) -/

section
variable {s : State} {c : Code}

/-- With a code RESOLVE dispatches it. -/
theorem execResolve_of_idle_with_code (hl : s.learn = .idle) (hv : s.codeValid = true) (hc : s.code = some c) :
    execResolve s = dispatchCode c s := by
  simp [execResolve, hl, hv, readCode, hc]

theorem execResolve_of_idle_without_code (hl : s.learn = .idle) (hv : s.codeValid = false) :
    execResolve s = endCycle [] s := by
  simp [execResolve, hl, hv]

theorem dispatchCode_of_known {n : ActionName} (hn : tableLookup c s.table = some n) (hk : isKnown n = true) :
    dispatchCode c s = dispatchKnown n c s := by
  simp [dispatchCode, hn, hk]

theorem dispatchCode_of_unknown (h : ∀ n, tableLookup c s.table = some n → isKnown n = false) :
    dispatchCode c s = endCycle [.decodedUnknown c] s := by
  cases hn : tableLookup c s.table with
  | none => simp [dispatchCode, hn]
  | some n => simp [dispatchCode, hn, h n hn]

theorem undecodableEvents_of_no_code (hv : s.codeValid = false) :
    undecodableEvents s = if 1 ≤ s.pulseN then [.undecodable] else [] := by
  simp [undecodableEvents, hv]

/-- With a code, the events of RESOLVE are those after UNDECODABLE. -/
theorem undecodableEvents_append_of_codeValid (hv : s.codeValid = true) (es : List Event) :
    undecodableEvents s ++ es = es := by
  rw [undecodableEvents_of_codeValid hv, List.nil_append]

end

/-- Settles O41: RESOLVE goes on to the dispatch of a known name, which drives the line of that name alone. -/
theorem knownCodeIsDispatched : Obligations.KnownCodeIsDispatched := by
  intro s c n hl hv hc hn hk
  refine ⟨_, (execResolve_of_idle_with_code hl hv hc).trans (dispatchCode_of_known hn hk), ?_, rfl,
    outGet_outSet_true hk _, fun m hm => outGet_outSet_of_ne hm _ _, rfl, rfl, rfl, ⟨rfl, rfl⟩⟩
  exact undecodableEvents_append_of_codeValid hv _

/-- Settles O42: without a known name, and without a code, RESOLVE only ends the cycle. -/
theorem unknownCodeIsReported : Obligations.UnknownCodeIsReported := by
  refine ⟨fun s c hl hv hc hn => ?_, fun s hl hv => ?_⟩
  · exact ⟨_, (execResolve_of_idle_with_code hl hv hc).trans (dispatchCode_of_unknown hn),
      undecodableEvents_append_of_codeValid hv _, rfl, ⟨rfl, rfl, rfl⟩, ⟨rfl, rfl⟩, rfl⟩
  · have hevents : undecodableEvents s ++ [] = if 1 ≤ s.pulseN then [.undecodable] else [] := by
      rw [List.append_nil, undecodableEvents_of_no_code hv]
    exact ⟨_, execResolve_of_idle_without_code hl hv, hevents, rfl, ⟨rfl, rfl, rfl⟩, ⟨rfl, rfl⟩, rfl⟩

/-! ## UNDECODABLE (R186) -/

@[simp] theorem undecodable_mem_undecodableEvents_iff {s : State} :
    Event.undecodable ∈ undecodableEvents s ↔ 1 ≤ s.pulseN ∧ s.codeValid = false := by
  unfold undecodableEvents
  split_ifs with h <;> simp [h]

/-- Settles O43: without a fault, the events of RESOLVE are `undecodableEvents` and at most one of another kind. -/
theorem undecodableExactly : Obligations.UndecodableExactly := by
  intro s t _ h hf
  obtain ⟨-, -, rfl⟩ | ⟨_, _, _, -, -, -, -, -, rfl⟩ | ⟨_, _, -, -, rfl⟩ | ⟨_, _, _, _, -, -, -, -, -, rfl⟩ |
    ⟨-, -, rfl⟩ | ⟨_, -, -, -, -, rfl⟩ | ⟨_, _, -, -, -, -, -, rfl⟩ := execResolve_cases h
  case inl => exact nomatch hf
  case inr.inl => exact nomatch hf
  all_goals simp

/-! ## HOLD (R183) -/

section
variable {s : State} {t0 : U32} (ht0 : s.holdT0Ms = some t0)
include ht0

theorem execHold_of_running (ht : timedOut s.inp.nowMs t0 assertMs = false) :
    execHold s = .next ((s.goto .hold).drive none []) := by
  simp [execHold, ht0, ht]

variable {n : ActionName} (hn : s.holdName = some n)
include hn

theorem execHold_of_elapsed (ht : timedOut s.inp.nowMs t0 assertMs = true) :
    execHold s = .next (((s.deassertLine n).goto .boundary).drive none []) := by
  simp [execHold, ht0, ht, hn]

/-- With its name and time at hand, HOLD writes only `phase` and the line of that name. -/
theorem execHold_frame {t : State} (h : execHold s = .next t) :
    (∀ m, m ≠ n → outGet t.out m = outGet s.out m) ∧ t.holdName = s.holdName ∧ t.holdT0Ms = s.holdT0Ms ∧ silent t ∧
      t.syncT0Ms = s.syncT0Ms ∧ sameMachine s t ∧ sameEdge s t ∧ samePulses s t ∧ sameCode s t ∧ sameLearning s t ∧
      t.faulted = s.faulted := by
  obtain ⟨-, hnone | hnone⟩ | ⟨_, -, ⟨-, n', hn', rfl⟩ | ⟨-, rfl⟩⟩ := execHold_cases h
  · cases ht0.symm.trans hnone
  · cases hn.symm.trans hnone
  · cases hn.symm.trans hn'
    exact ⟨fun m hm => outGet_outSet_of_ne hm _ _, rfl, rfl, ⟨rfl, rfl⟩, rfl, ⟨rfl, rfl, rfl, rfl⟩, ⟨rfl, rfl⟩,
      ⟨rfl, rfl⟩, ⟨rfl, rfl⟩, ⟨rfl, rfl⟩, rfl⟩
  · exact ⟨fun _ _ => rfl, rfl, rfl, ⟨rfl, rfl⟩, rfl, ⟨rfl, rfl, rfl, rfl⟩, ⟨rfl, rfl⟩, ⟨rfl, rfl⟩, ⟨rfl, rfl⟩,
      ⟨rfl, rfl⟩, rfl⟩

end

/-- Settles O45: the two ways HOLD answers, one clause each, and the frame they share. -/
theorem holdDeassertsAfterAssertTime : Obligations.HoldDeassertsAfterAssertTime := by
  refine ⟨rfl, fun s n t0 hn ht0 => ?_⟩
  obtain ⟨t, h⟩ := execHold_answers s
  refine ⟨t, h, fun hlate => ?_, fun hsoon => ?_, execHold_frame ht0 hn h⟩
  · cases h.symm.trans (execHold_of_elapsed ht0 hn (timedOut_iff.mpr hlate))
    exact ⟨outGet_outSet_false _ _, rfl⟩
  · cases h.symm.trans (execHold_of_running ht0 (timedOut_eq_false_iff.mpr hsoon))
    exact ⟨rfl, rfl⟩

/-! ## The whole hold (R185, R203) -/

/-- A running core in HOLD for the line of `n` since `t0`, its lines at `o`. -/
structure Holding (n : ActionName) (t0 : U32) (o : Outputs) (s : State) : Prop where
  phase   : s.phase = .hold
  running : s.faulted = none
  name    : s.holdName = some n
  time    : s.holdT0Ms = some t0
  out     : s.out = o

section
variable {n : ActionName} {t0 : U32} {o : Outputs} {s : State} (hs : Holding n t0 o s)
include hs

/-- A sample before 400 ms have passed leaves the hold as it is. -/
theorem Holding.step_soon {x : Sample} {l : List Sample} (hsees : Sees (x :: l) s) (hr : x.rst = false)
    (hsoon : (x.nowMs - t0).toNat < 400) : ∃ t, step s = .next t ∧ Holding n t0 o t ∧ Sees l t := by
  obtain rfl := hsees.inp_eq
  have hexec := execHold_of_running hs.time (timedOut_eq_false_iff.mpr hsoon)
  refine ⟨_, step_of_execPhase hr hs.running hs.phase hexec, ?_, hsees.advance rfl⟩
  exact ⟨by simp, by simp [hs.running], by simp [hs.name], by simp [hs.time], by simp [hs.out]⟩

/-- The first sample at 400 ms or later ends it. -/
theorem Holding.step_late {x : Sample} {l : List Sample} (hsees : Sees (x :: l) s) (hr : x.rst = false)
    (hlate : 400 ≤ (x.nowMs - t0).toNat) :
    ∃ t, step s = .next t ∧ t.phase = .boundary ∧ outGet t.out n = false := by
  obtain rfl := hsees.inp_eq
  have hexec := execHold_of_elapsed hs.time hs.name (timedOut_iff.mpr hlate)
  exact ⟨_, step_of_execPhase hr hs.running hs.phase hexec, by simp, by simp⟩

end

/-- Any number of samples before 400 ms have passed leaves the hold as it is. -/
theorem Holding.run_soon {n : ActionName} {t0 : U32} {o : Outputs} {before l : List Sample}
    (hsoon : ∀ x ∈ before, x.rst = false ∧ (x.nowMs - t0).toNat < 400) {s : State} (hs : Holding n t0 o s)
    (hsees : Sees (before ++ l) s) :
    ∃ t, core.run before.length s = .next t ∧ Holding n t0 o t ∧ Sees l t := by
  induction before generalizing s with
  | nil => exact ⟨s, rfl, hs, hsees⟩
  | cons x before ih =>
    obtain ⟨⟨hr, hx⟩, hsoon⟩ := List.forall_mem_cons.mp hsoon
    obtain ⟨u, hstep, hu, hsees⟩ := hs.step_soon hsees hr hx
    obtain ⟨t, hrun, ht⟩ := ih hsoon hu hsees
    exact ⟨t, (run_succ_of_step hstep).trans hrun, ht⟩

/-- Settles O46: every part of the samples before 400 ms leaves the hold as it is, and the sample after them ends it. -/
theorem holdRunsToItsEnd : Obligations.HoldRunsToItsEnd := by
  intro s n t0 before last rest hp hf hn ht0 hsamples hsoon hr hlate
  have hs : Holding n t0 s.out s := ⟨hp, hf, hn, ht0, rfl⟩
  constructor
  · intro k hk
    have hsees : Sees (before.take k ++ []) s := by
      rw [List.append_nil, Sees, hsamples]
      exact (List.take_prefix k before).trans (List.prefix_append _ _)
    obtain ⟨t, hrun, ht, -⟩ := hs.run_soon (fun x hx => hsoon x (List.mem_of_mem_take hx)) hsees
    rw [List.length_take_of_le hk] at hrun
    exact ⟨t, hrun, ht.phase, ht.out⟩
  · have hsees : Sees (before ++ last :: rest) s := ⟨[], by rw [List.append_nil, hsamples]⟩
    obtain ⟨u, hrun, hu, hsees⟩ := hs.run_soon hsoon hsees
    obtain ⟨t, hstep, ht⟩ := hu.step_late hsees hr hlate
    exact ⟨t, (run_add_of_next (n := 1) hrun).trans (run_succ_of_step hstep), ht⟩

/-! ## At most one line (R184) -/

/-- Under the invariant a line asserted is that of `hold_name`. -/
theorem Inv.holdName_of_asserted {s : State} (h : Inv s) {n : ActionName} (hn : outGet s.out n = true) :
    s.holdName = some n := by
  by_cases hp : s.phase = .hold
  · obtain ⟨m, hname, -, -, hout⟩ := h.holdOk hp
    rw [hout] at hn
    rw [hname, eq_of_outSet_true_rises (outGet_allLow n) hn]
  · rw [h.restOk hp, outGet_allLow] at hn
    exact absurd hn Bool.false_ne_true

/-- No operation but RESOLVE and HOLD drives a line. -/
theorem execPhase_out {p : Phase} {s t : State} (hr : p ≠ .resolve) (hh : p ≠ .hold) (h : execPhase p s = .next t) :
    t.out = s.out := by
  cases p with
  | boundary =>
    obtain ⟨l, r, es, heq, -⟩ := boundaryTake_eq s
    cases h; rw [heq]; rfl
  | sync => obtain ⟨-, rfl⟩ | ⟨_, -, rfl⟩ := execSync_cases h <;> rfl
  | edgeRec => cases h; rfl
  | edgeWait =>
    obtain ⟨rfl, -⟩ | ⟨_, -, ⟨-, rfl⟩ | ⟨-, _, -, ⟨-, -, rfl⟩ | ⟨-, rfl⟩⟩⟩ := execEdgeWait_cases h <;> rfl
  | decode => obtain ⟨-, rfl⟩ | ⟨_, rfl⟩ := execDecode_cases h <;> rfl
  | resolve => exact absurd rfl hr
  | hold => exact absurd rfl hh

/-- HOLD leaves the lines, or drives one low. -/
theorem execHold_out {s t : State} (h : execHold s = .next t) :
    t.out = s.out ∨ ∃ m, t.out = outSet s.out m false := by
  obtain ⟨rfl, -⟩ | ⟨_, -, ⟨-, m, -, rfl⟩ | ⟨-, rfl⟩⟩ := execHold_cases h
  · exact .inl rfl
  · exact .inr ⟨m, rfl⟩
  · exact .inl rfl

/-- RESOLVE leaves the lines, or drives that of `hold_name` high on entering HOLD. -/
theorem execResolve_out {s t : State} (h : execResolve s = .next t) :
    t.out = s.out ∨ ∃ m, t.out = outSet s.out m true ∧ t.phase = .hold ∧ t.holdName = some m := by
  obtain ⟨-, -, rfl⟩ | ⟨_, _, _, -, -, -, -, -, rfl⟩ | ⟨_, _, -, -, rfl⟩ | ⟨_, _, _, _, -, -, -, -, -, rfl⟩ |
    ⟨-, -, rfl⟩ | ⟨_, -, -, -, -, rfl⟩ | ⟨_, n, -, -, -, -, -, rfl⟩ := execResolve_cases h
  case inr.inr.inr.inr.inr.inr => exact .inr ⟨n, rfl, rfl, rfl⟩
  all_goals exact .inl rfl

/-- Only RESOLVE raises a line: that of `hold_name`, on entering HOLD. -/
theorem execPhase_line_rises {p : Phase} {s t : State} {n : ActionName} (h : execPhase p s = .next t)
    (hlow : outGet s.out n = false) (hhigh : outGet t.out n = true) :
    p = .resolve ∧ t.phase = .hold ∧ t.holdName = some n := by
  have hne : ¬ outGet s.out n = true := by simp [hlow]
  by_cases hr : p = .resolve
  · subst hr
    obtain hsame | ⟨m, hout, hphase, hname⟩ := execResolve_out h
    · exact absurd (hsame ▸ hhigh) hne
    · rw [hout] at hhigh
      exact ⟨rfl, hphase, eq_of_outSet_true_rises hlow hhigh ▸ hname⟩
  by_cases hh : p = .hold
  · subst hh
    obtain hsame | ⟨m, hout⟩ := execHold_out h
    · exact absurd (hsame ▸ hhigh) hne
    · exact absurd (outGet_of_outSet_false (hout ▸ hhigh)) hne
  · exact absurd (execPhase_out hr hh h ▸ hhigh) hne

/-- Settles O58: an asserted line is that of `hold_name`; a reset step asserts none, and an operation only as RESOLVE. -/
theorem atMostOneLineAsserted : Obligations.AtMostOneLineAsserted := by
  refine ⟨fun s n m hinv hn hm => ?_, fun s t n h hlow hhigh => ?_⟩
  · exact Option.some.inj ((hinv.holdName_of_asserted hn).symm.trans (hinv.holdName_of_asserted hm))
  · obtain ⟨-, -, rfl⟩ | ⟨-, -, u, hu, rfl⟩ := step_cases h
    · have hnone : outGet (State.resetWith s.cfg s.inp s.queue s.draws).out n = false := outGet_allLow n
      rw [State.advance_out, hnone] at hhigh
      exact absurd hhigh Bool.false_ne_true
    · rw [exec_fetch] at hu
      rw [State.advance_out] at hhigh
      rw [State.advance_phase, State.advance_holdName]
      exact execPhase_line_rises hu hlow hhigh

end Sys2Proof.Machine
end

section

/-! # The cycle (45_cycle.md R201, R204, R206, R207) -/

namespace Sys2Proof.Machine

/-! ## BOUNDARY and its commands (R201, 30_encoding.md R83) -/

theorem boundaryTake_of_no_command {s : State} (hc : s.inp.cmd = none) :
    boundaryTake s = boundaryStep s.learn none [] s := by
  rw [boundaryTake, hc]

theorem boundaryTake_of_rejected {s : State} {w : BitVec 64} {e : DecodeError} (hc : s.inp.cmd = some w)
    (hw : decodeCommand w = .rejected e) : boundaryTake s = illegalStep s := by
  rw [boundaryTake, hc]
  exact congrArg (decodedStep · s) hw

/-- A legal command's own meaning is the BOUNDARY step that takes it (log entry 5). -/
theorem exec_of_decodeCommand {s : State} {w : BitVec 64} {i : Instr} (hc : s.inp.cmd = some w)
    (hw : decodeCommand w = .instr i) : exec i s = .next (boundaryTake s) := by
  have htake : boundaryTake s = commandStep i s := by
    rw [boundaryTake, hc]
    exact congrArg (decodedStep · s) hw
  rw [htake]
  obtain ⟨n, t, harm⟩ | hsnapshot | ⟨e, hrejected⟩ := decodeCommand_cases w
  · cases hw.symm.trans harm; rfl
  · cases hw.symm.trans hsnapshot; rfl
  · exact nomatch hw.symm.trans hrejected

/-- Settles O23: whatever the command, BOUNDARY is a `boundaryStep`; the last three clauses are its three cases. -/
theorem boundaryStartsCycle : Obligations.BoundaryStartsCycle := by
  intro s
  obtain ⟨l, r, es, heq, -⟩ := boundaryTake_eq s
  have hexec : exec .boundary s = .next (boundaryStep l r es s) := congrArg Host.Outcome.next heq
  refine ⟨_, hexec, rfl, rfl, rfl, rfl, rfl, rfl, rfl, ⟨rfl, rfl, rfl, rfl⟩, ⟨rfl, rfl⟩, ⟨rfl, rfl, rfl⟩, rfl, ?_⟩
  rw [← heq]
  refine ⟨fun hc => ?_, fun w e hc hw => ?_, fun w i hc hw => exec_of_decodeCommand hc hw⟩
  · rw [boundaryTake_of_no_command hc]; exact ⟨⟨rfl, rfl⟩, rfl⟩
  · rw [boundaryTake_of_rejected hc hw]; exact ⟨rfl, rfl, rfl⟩

/-- BOUNDARY, SNAPSHOT and ARM differ only in the learning state and the outputs they give `boundaryStep`. -/
theorem exec_eq_boundaryStep (s : State) {i : Instr}
    (hi : i = .boundary ∨ i = .snapshot ∨ ∃ n timeout, i = .arm n timeout) :
    ∃ l r es, exec i s = .next (boundaryStep l r es s) := by
  obtain rfl | rfl | ⟨n, timeout, rfl⟩ := hi
  · obtain ⟨l, r, es, heq, -⟩ := boundaryTake_eq s
    exact ⟨l, r, es, congrArg Host.Outcome.next heq⟩
  · exact ⟨_, _, _, rfl⟩
  · exact ⟨_, _, _, rfl⟩

/-- No entry can be read of an empty sequence (93_implementation_defined.md U7). -/
theorem readPulse_of_empty {s : State} (h : s.pulseN = 0) (k : Nat) : readPulse s k = none :=
  if_neg (by omega)

/-- Settles O24: the frame of `boundaryStep`, which leaves no entry and no code to read. -/
theorem commandsRunTheBoundaryStep : Obligations.CommandsRunTheBoundaryStep := by
  intro s i hi
  obtain ⟨l, r, es, hexec⟩ := exec_eq_boundaryStep s hi
  exact ⟨_, hexec, rfl, readPulse_of_empty rfl, rfl, rfl, rfl, rfl, rfl, ⟨rfl, rfl, rfl, rfl⟩, ⟨rfl, rfl⟩,
    ⟨rfl, rfl, rfl⟩, rfl⟩

/-! ## The transition table of `phase` (R206) -/

/-- Without `rst` a step is the operation of its phase, and then the next sample. -/
theorem step_cases_of_no_rst {s t : State} (hr : s.inp.rst = false) (h : step s = .next t) :
    ∃ u, execPhase s.phase s = .next u ∧ t = u.advance := by
  obtain ⟨hrst, -⟩ | ⟨-, -, u, hu, ht⟩ := step_cases h
  · exact absurd hrst (by simp [hr])
  · exact ⟨u, exec_fetch s ▸ hu, ht⟩

theorem timedOut_iff_le {now start limit : U32} : timedOut now start limit = true ↔ limit ≤ udiff32 now start :=
  decide_eq_true_iff

section
variable {s t : State}

theorem execBoundary_phase (h : execBoundary s = .next t) : t.phase = .sync := by
  obtain ⟨l, r, es, heq, -⟩ := boundaryTake_eq s
  cases h
  rw [heq]; rfl

variable (hf : t.faulted = none)
include hf

theorem execSync_phase (h : execSync s = .next t) :
    ∃ t0, s.syncT0Ms = some t0 ∧ t.phase = (if s.cfg.idleTimeoutMs ≤ udiff32 s.inp.nowMs t0 then .decode
      else if s.inp.line = false then .edgeRec else .sync) := by
  obtain ⟨-, rfl⟩ | ⟨t0, ht0, rfl⟩ := execSync_cases h
  · exact nomatch hf
  · refine ⟨t0, ht0, ?_⟩
    simp only [State.drive_phase, State.goto_phase, syncNext, timedOut_iff_le]

theorem execEdgeWait_phase (h : execEdgeWait s = .next t) :
    ∃ t0, s.edgeT0Us = some t0 ∧ t.phase = (if s.cfg.pulseTimeoutUs ≤ udiff32 s.inp.nowUs t0 then .decode
      else if s.edgeLevel = some s.inp.line then .edgeWait
      else if s.pulseN = 99 then .decode else .edgeRec) := by
  obtain ⟨rfl, -⟩ | ⟨t0, ht0, ⟨hlate, rfl⟩ | ⟨hsoon, level, hl, hcases⟩⟩ := execEdgeWait_cases h
  · exact nomatch hf
  · exact ⟨t0, ht0, (if_pos (timedOut_iff_le.mp hlate)).symm⟩
  · refine ⟨t0, ht0, ?_⟩
    rw [if_neg (BitVec.not_le.mpr (udiff32_lt_of_timedOut hsoon)), hl]
    obtain ⟨hne, -, rfl⟩ | ⟨rfl, rfl⟩ := hcases
    · have hchange : ¬ some level = some s.inp.line := fun heq => hne (Option.some.inj heq).symm
      rw [if_neg hchange, State.drive_phase, State.goto_phase]
      simp only [Nat.reduceEqDiff]
    · exact (if_pos rfl).symm

theorem execDecode_phase (h : execDecode s = .next t) : t.phase = .resolve := by
  obtain ⟨-, rfl⟩ | ⟨_, rfl⟩ := execDecode_cases h
  · exact nomatch hf
  · rfl

/-- RESOLVE goes to HOLD exactly to dispatch a known name, and else ends the cycle. -/
theorem execResolve_phase (h : execResolve s = .next t) :
    (t.phase = .hold ∨ t.phase = .boundary) ∧
    (t.phase = .hold ↔ s.learn = .idle ∧ s.codeValid = true ∧
      ∃ c n, s.code = some c ∧ tableLookup c s.table = some n ∧ isKnown n = true) := by
  obtain ⟨-, -, rfl⟩ | ⟨_, _, _, -, -, -, -, -, rfl⟩ | ⟨_, _, hl, -, rfl⟩ | ⟨_, _, _, _, hl, -, -, -, -, rfl⟩ |
    ⟨hv, -, rfl⟩ | ⟨c, -, -, hc, hunknown, rfl⟩ | ⟨c, n, hl, hv, hc, hn, hk, rfl⟩ := execResolve_cases h
  · exact nomatch hf
  · exact nomatch hf
  · exact ⟨.inr rfl, nofun, fun ⟨hi, _⟩ => nomatch hl.symm.trans hi⟩
  · exact ⟨.inr rfl, nofun, fun ⟨hi, _⟩ => nomatch hl.symm.trans hi⟩
  · exact ⟨.inr rfl, nofun, fun ⟨_, hvalid, _⟩ => nomatch hv.symm.trans hvalid⟩
  · refine ⟨.inr rfl, nofun, fun ⟨_, _, c', n, hc', hn, hk⟩ => ?_⟩
    cases hc.symm.trans hc'
    exact nomatch hk.symm.trans (hunknown n hn)
  · exact ⟨.inl rfl, fun _ => ⟨hl, hv, c, n, hc, hn, hk⟩, fun _ => rfl⟩

theorem execHold_phase (h : execHold s = .next t) :
    ∃ t0, s.holdT0Ms = some t0 ∧ t.phase = (if 400 ≤ udiff32 s.inp.nowMs t0 then .boundary else .hold) := by
  obtain ⟨rfl, -⟩ | ⟨t0, ht0, ⟨hlate, _, -, rfl⟩ | ⟨hsoon, rfl⟩⟩ := execHold_cases h
  · exact nomatch hf
  · exact ⟨t0, ht0, (if_pos (timedOut_iff_le.mp hlate)).symm⟩
  · exact ⟨t0, ht0, (if_neg (BitVec.not_le.mpr (udiff32_lt_of_timedOut hsoon))).symm⟩

end

/-- The line of a known name is the only one that driving it high asserts. -/
theorem outGet_outSet_allLow_iff {n m : ActionName} (hn : isKnown n = true) :
    outGet (outSet .allLow n true) m = true ↔ m = n := by
  rw [outGet_outSet, hn, outGet_allLow]
  simp

/-- Settles O47: the row of each phase is where its operation goes; the three invariants are clauses of `Inv`. -/
theorem phaseFollowsTransitionTable : Obligations.PhaseFollowsTransitionTable := by
  refine ⟨fun s t hr h hf => ?_, fun s hinv => ⟨hinv.pulsesRoom, fun hp => ?_, fun hp m => ?_⟩⟩
  · obtain ⟨u, hu, rfl⟩ := step_cases_of_no_rst hr h
    rw [State.advance_faulted] at hf
    rw [State.advance_phase]
    refine ⟨fun hp => ?_, fun hp => ?_, fun hp => ?_, fun hp => ?_, fun hp => ?_, fun hp => ?_, fun hp => ?_⟩ <;>
      rw [hp] at hu
    · exact execBoundary_phase hu
    · exact execSync_phase hf hu
    · cases hu; rfl
    · exact execEdgeWait_phase hf hu
    · exact execDecode_phase hf hu
    · exact execResolve_phase hf hu
    · exact execHold_phase hf hu
  · obtain ⟨n, hname, -, hknown, hout⟩ := hinv.holdOk hp
    exact ⟨n, hname, fun m => hout ▸ outGet_outSet_allLow_iff hknown⟩
  · rw [hinv.restOk hp, outGet_allLow]

/-! ## Only waits repeat (R204) -/

/-- A phase that is not the one a wait goes to at its limit comes before the limit. -/
theorem lt_limit_of_phase_ne {p q r : Phase} {elapsed limit : U32} (h : p = if limit ≤ elapsed then q else r)
    (hne : p ≠ q) : elapsed < limit := by
  by_contra hreached
  exact hne (h.trans (if_pos (BitVec.not_lt.mp hreached)))

/-- Settles O48: by the transition table, a phase is its own successor only where its wait has not reached its limit. -/
theorem onlyWaitsRepeat : Obligations.OnlyWaitsRepeat := by
  intro s t hr h hf hsame
  obtain ⟨hboundary, hsync, hedgeRec, hedgeWait, hdecode, hresolve, hhold⟩ := phaseFollowsTransitionTable.1 s t hr h hf
  rw [hsame] at hboundary hsync hedgeRec hedgeWait hdecode hresolve hhold
  cases hp : s.phase with
  | boundary => exact nomatch hp.symm.trans (hboundary hp)
  | sync =>
    obtain ⟨t0, ht0, hnext⟩ := hsync hp
    exact .inl ⟨rfl, t0, ht0, lt_limit_of_phase_ne hnext (by simp [hp])⟩
  | edgeRec => exact nomatch hp.symm.trans (hedgeRec hp)
  | edgeWait =>
    obtain ⟨t0, ht0, hnext⟩ := hedgeWait hp
    exact .inr (.inl ⟨rfl, t0, ht0, lt_limit_of_phase_ne hnext (by simp [hp])⟩)
  | decode => exact nomatch hp.symm.trans (hdecode hp)
  | resolve =>
    obtain ⟨hnext | hnext, -⟩ := hresolve hp
    · exact nomatch hp.symm.trans hnext
    · exact nomatch hp.symm.trans hnext
  | hold =>
    obtain ⟨t0, ht0, hnext⟩ := hhold hp
    exact .inr (.inr ⟨rfl, t0, ht0, lt_limit_of_phase_ne hnext (by simp [hp])⟩)

/-! ## A faulted core (R207) -/

/-- Settles O18: the branch of `step` for a faulted core. -/
theorem faultedCoreTakesNoStep : Obligations.FaultedCoreTakesNoStep := fun _ _ hf hr => step_of_faulted hr hf

end Sys2Proof.Machine
end

section

/-! # Faults and error statuses (60_exceptions.md R224, R226) -/

namespace Sys2Proof.Machine

/-! ## Faults (R226) -/

/-- An operation leaves `faulted` as it was, or raises a fault and does no more. -/
theorem exec_faulted {i : Instr} {s t : State} (h : exec i s = .next t) :
    t.faulted = s.faulted ∨ ∃ r, t = faultedFrom s r := by
  have hboundary (hi : i = .boundary ∨ i = .snapshot ∨ ∃ n timeout, i = .arm n timeout) : t.faulted = s.faulted := by
    obtain ⟨l, r, es, heq⟩ := exec_eq_boundaryStep s hi
    cases h.symm.trans heq; rfl
  cases i with
  | arm n timeout => exact .inl (hboundary (.inr (.inr ⟨n, timeout, rfl⟩)))
  | snapshot => exact .inl (hboundary (.inr (.inl rfl)))
  | boundary => exact .inl (hboundary (.inl rfl))
  | sync =>
    obtain ⟨-, hraise⟩ | ⟨_, -, rfl⟩ := execSync_cases h
    · exact .inr ⟨_, hraise⟩
    · exact .inl rfl
  | edgeRec => cases h; exact .inl rfl
  | edgeWait =>
    obtain ⟨hraise, -⟩ | ⟨_, -, ⟨-, rfl⟩ | ⟨-, _, -, ⟨-, -, rfl⟩ | ⟨-, rfl⟩⟩⟩ := execEdgeWait_cases h
    · exact .inr ⟨_, hraise⟩
    all_goals exact .inl rfl
  | decode =>
    obtain ⟨-, hraise⟩ | ⟨_, rfl⟩ := execDecode_cases h
    · exact .inr ⟨_, hraise⟩
    · exact .inl rfl
  | resolve =>
    obtain ⟨-, -, hraise⟩ | ⟨_, _, _, -, -, -, -, -, hraise⟩ | ⟨_, _, -, -, rfl⟩ |
      ⟨_, _, _, _, -, -, -, -, -, rfl⟩ | ⟨-, -, rfl⟩ | ⟨_, -, -, -, -, rfl⟩ |
      ⟨_, _, -, -, -, -, -, rfl⟩ := execResolve_cases h
    · exact .inr ⟨_, hraise⟩
    · exact .inr ⟨_, hraise⟩
    all_goals exact .inl rfl
  | hold =>
    obtain ⟨hraise, -⟩ | ⟨_, -, ⟨-, _, -, rfl⟩ | ⟨-, rfl⟩⟩ := execHold_cases h
    · exact .inr ⟨_, hraise⟩
    all_goals exact .inl rfl

/-- Settles O19: from a core that is not faulted, a faulted next state is one that a raise gives, for the reason it holds. -/
theorem raisingHasNoOtherEffect : Obligations.RaisingHasNoOtherEffect := by
  intro i s t r hs h ht
  obtain hsame | ⟨r', rfl⟩ := exec_faulted h
  · exact nomatch ht.symm.trans (hsame.trans hs)
  · cases ht; rfl

/-! ## Error statuses (R224) -/

section
variable {s : State}

/-- ARM with an error status leaves the learning state and emits nothing. -/
theorem armStep_eq_of_error {n : U8} {timeout : U32} (h : armStatus n timeout s.learn ≠ .ok) :
    armStep n timeout s = boundaryStep s.learn (some (bareResponse (armStatus n timeout s.learn))) [] s := by
  rw [armStep, armLearn, armEvents, if_neg h, if_neg h]

variable {st : Status} (hst : st ≠ .ok)
include hst

/-- A command answered with an error status adds that response to the BOUNDARY step, and nothing more. -/
theorem decodedStep_eq_of_error {d : Decoded} (h : (decodedStep d s).resp = some (bareResponse st)) :
    decodedStep d s = boundaryStep s.learn (some (bareResponse st)) [] s := by
  rcases d with (⟨n, timeout⟩ | _) | _
  · obtain rfl : armStatus n timeout s.learn = st := congrArg Response.status (Option.some.inj h)
    exact armStep_eq_of_error hst
  · exact absurd (congrArg Response.status (Option.some.inj h)).symm hst
  all_goals
    obtain rfl : Status.illegalCommand = st := congrArg Response.status (Option.some.inj h)
    rfl

theorem boundaryTake_eq_of_error (h : (boundaryTake s).resp = some (bareResponse st)) :
    boundaryTake s = boundaryStep s.learn (some (bareResponse st)) [] s := by
  cases hc : s.inp.cmd with
  | none => rw [boundaryTake_of_no_command hc] at h; exact nomatch h
  | some w =>
    have htake : boundaryTake s = decodedStep (decodeCommand w) s := by rw [boundaryTake, hc]
    rw [htake] at h ⊢
    exact decodedStep_eq_of_error hst h

end

/-- Settles O27: with an error status and without a command, BOUNDARY is the same `boundaryStep`, but for the response. -/
theorem failedCommandHasNoEffect : Obligations.FailedCommandHasNoEffect := by
  intro s t u st ht hu hst hresp
  cases ht
  cases hu
  rw [boundaryTake_eq_of_error hst hresp, boundaryTake_of_no_command rfl]
  rfl

end Sys2Proof.Machine
end

section

/-! # Reset (70_reset_and_hazards.md R250 to R255) -/

namespace Sys2Proof.Machine

/-! ## An admitted configuration (R255) -/

theorem namesKnown_iff {t : List Entry} : namesKnown t = true ↔ ∀ e ∈ t, isKnown e.name = true := by
  simp [namesKnown, isKnown_iff]

theorem fitsCapacity_iff {cap : Option Nat} {t : List Entry} :
    fitsCapacity cap t = true ↔ ∀ c, cap = some c → t.length ≤ c := by
  cases cap <;> simp [fitsCapacity]

theorem tableWellFormed_iff {cap : Option Nat} {t : List Entry} :
    tableWellFormed cap t = true ↔
      (t.map Entry.key).Nodup ∧ (∀ e ∈ t, isKnown e.name = true) ∧ ∀ c, cap = some c → t.length ≤ c := by
  rw [tableWellFormed, Bool.and_eq_true, Bool.and_eq_true, and_assoc, keysDistinct, decide_eq_true_iff, namesKnown_iff,
    fitsCapacity_iff]

/-! ## The reset step (R251, log entry 14) -/

section
variable {s : State} (hr : s.inp.rst = true)
include hr

theorem step_of_rst_of_wellFormed (hc : s.cfg.wellFormed = true) :
    step s = .next (State.resetWith s.cfg s.inp s.queue s.draws).advance := by
  rw [step_of_rst hr, resetStep, if_pos hc]

theorem step_of_rst_of_not_wellFormed (hc : s.cfg.wellFormed = false) : step s = .refused .badConfiguration := by
  rw [step_of_rst hr, resetStep, if_neg (Bool.eq_false_iff.mp hc)]

end

/-- Settles O16: the table's form is the conjunction of its three conditions, and a reset step tests it. -/
theorem badConfigurationIsRefused : Obligations.BadConfigurationIsRefused :=
  ⟨fun _ => tableWellFormed_iff, fun _ => step_of_rst_of_not_wellFormed⟩

/-! ## The reset state (R250) -/

theorem resetWith_buf_getElem? (p : Params) (x : Sample) (q : List Sample) (d : Nat) {k : Nat} (hk : k < 100) :
    (State.resetWith p x q d).buf[k]? = some none := by
  simp [State.resetWith, hk]

/-- Settles O14: the Reset column of R20, element by element. -/
theorem resetStateValues : Obligations.ResetStateValues :=
  ⟨rfl, rfl, rfl, rfl, outGet_allLow, rfl, rfl, rfl, rfl, rfl, rfl, rfl, rfl,
    fun _ => resetWith_buf_getElem? Config.params (Config.freeSample 0) [] 1⟩

/-- Settles O56: the configuration after power-on is an admitted one, so `State.reset` is a case of `inv_resetWith`. -/
theorem resetMeetsInvariant : Obligations.ResetMeetsInvariant :=
  ⟨inv_resetWith params_wellFormed _ _ _, fun _ x q d h => inv_resetWith h x q d⟩

/-! ## A step with `rst` asserted (R251 to R253) -/

/-- A faulted core has no step but a reset step. -/
theorem rst_of_step_of_faulted {s t : State} (h : step s = .next t) (hf : s.faulted ≠ none) : s.inp.rst = true := by
  obtain ⟨hr, -⟩ | ⟨-, hnone, -⟩ := step_cases h
  · exact hr
  · exact absurd hnone hf

/-- The reset state with the next sample taken is again a reset state. -/
theorem advance_resetWith (p : Params) (x : Sample) (q : List Sample) (d : Nat) :
    ∃ x' q' d', (State.resetWith p x q d).advance = State.resetWith p x' q' d' := by
  cases q with
  | nil => exact ⟨_, _, _, State.advance_of_nil rfl⟩
  | cons y q => exact ⟨_, _, _, State.advance_of_cons rfl⟩

/-- Settles O15: only a reset step leaves the faulted state, and its next state is again a reset state. -/
theorem resetStepGivesResetState : Obligations.ResetStepGivesResetState := by
  refine ⟨fun _ _ => rst_of_step_of_faulted, fun s hr hc => ?_⟩
  obtain ⟨x, q, d, hadv⟩ := advance_resetWith s.cfg s.inp s.queue s.draws
  have hstep : step s = .next (State.resetWith s.cfg x q d) := by rw [step_of_rst_of_wellFormed hr hc, hadv]
  exact ⟨_, hstep, rfl, rfl, rfl, rfl, rfl, outGet_allLow, rfl, rfl, rfl, rfl, rfl, rfl, rfl, rfl,
    fun _ => resetWith_buf_getElem? s.cfg x q d, rfl, rfl⟩

end Sys2Proof.Machine
end
